-- ==== Sys2Proof/Word.lean ====
section
/-! DEFINITION. The word types of the block (spec/00_scope.md R9, R11: bit 0 is the least significant bit). -/

namespace Sys2Proof

/-- A table field, a counter value, a byte of a serialised word. -/
abbrev Byte := BitVec 8

/-- An operand or a response value. -/
abbrev Half := BitVec 16

/-- A command or response word, presented whole on its port (R71, R74). -/
abbrev Word := BitVec 32

end Sys2Proof
end

