-- ==== Sys2Proof/Config.lean ====
section
/-! DEFINITION. What an instance of the block fixes (spec/00_scope.md R6, R7, R8) and the one free value of the
model, the environment's choice of who moves next (spec/20_memory.md R58, R59). -/

namespace Sys2Proof

/-- The order of the two table writes of WRITE_US and of the two pin-field writes of ATTACH: the parameter
`WRITE_ORDER` of spec/93_implementation_defined.md U8. `byRule` is the order of R97 and R141. -/
inductive WriteOrder where
  /-- `tickBlocks` then `remainder`; `pin.id` then `pin.active` (R97, R141; decisions D12, D13). -/
  | byRule
  /-- Each pair the other way round, which a cautious model admits (D12 "admit both to be safe"). -/
  | swapped
deriving DecidableEq, Repr

/-- The parameters of an instance, each with the spec's default (R6, R7, R8). The constraints they must meet are
`Sys2Proof.Machine.ConfigValid` (R10). -/
structure Config where
  /-- `N_CH`, the number of servo channels. -/
  nCh : Nat := 4
  /-- `MIN_PULSE_US`. -/
  minPulseUs : Nat := 500
  /-- `MAX_PULSE_US`. -/
  maxPulseUs : Nat := 2000
  /-- `DEFAULT_PULSE_US`. -/
  defaultPulseUs : Nat := 1500
  /-- `OVERHEAD_US`. -/
  overheadUs : Nat := 8
  /-- `BLOCK_US`, one full period of the counter in microseconds. -/
  blockUs : Nat := 128
  /-- `TICKS_PER_US`, the inverse of the tick period 0.5 us. -/
  ticksPerUs : Nat := 2
  /-- `FRAME_PERIOD_US`, open, default read from "12.75 ms". -/
  framePeriodUs : Nat := 12750
  /-- `SYNC_REMAINDER`, open, default 0. -/
  syncRemainder : Byte := 0
  /-- `PIN_W`, open, the width in bits of a pin identifier. -/
  pinW : Nat := 5
  /-- `WRITE_ORDER` (U8), default the order of the rules. -/
  writeOrder : WriteOrder := .byRule
deriving DecidableEq, Repr

/-- Every parameter at its default (R6, R8). -/
def Config.default : Config := {}

/-- Who moves in a step: what the environment can do (R16, R185). -/
inductive Turn where
  /-- The timer takes a TICK (R118). -/
  | timer
  /-- The host takes its next micro-step, or issues its next command word (R15, R58). -/
  | host
  /-- The `rst` input is 1 in this step (R185). -/
  | rst
deriving DecidableEq, Repr, Inhabited

/-- FREE VALUE (log 2): the environment's choice in the n-th step for which `State.turns` names no turn. No rule
fixes the order of ticks and host micro-steps (R59, R200), so nothing constrains it. -/
opaque Config.freeTurn : Nat → Turn

end Sys2Proof
end

