-- ==== Sys2Proof/Syntax.lean ====
section
/-! DEFINITION. The operations of the block: one constructor for each row of spec/opcode_table.json. -/

namespace Sys2Proof

/-- The six commands and the two events (spec/30_encoding.md R72, R76). `ch` is the 4-bit `chan` field, `pin` a pin
identifier held in 7 bits (the widest instance of `PIN_W`, R8), `width` the 16-bit operand of WRITE_US (R73). -/
inductive Instr where
  /-- CONSTRUCT (R140). -/
  | construct
  /-- ATTACH `ch, pin` (R141). -/
  | attach (ch : BitVec 4) (pin : BitVec 7)
  /-- DETACH `ch` (R144). -/
  | detach (ch : BitVec 4)
  /-- ATTACHED `ch` (R145). -/
  | attached (ch : BitVec 4)
  /-- WRITE_US `ch, width` (R97). -/
  | writeUs (ch : BitVec 4) (width : Half)
  /-- READ_US `ch` (R98). -/
  | readUs (ch : BitVec 4)
  /-- OVF, one run of the timer-overflow handler (R110). -/
  | ovf
  /-- TICK, one count of the timer (R118). -/
  | tick
deriving DecidableEq, Repr

/-- The operation is a command of the host, carried by a command word (R72); the others are strobes (R76). -/
def Instr.isCommand : Instr → Bool
  | .construct => true
  | .attach _ _ => true
  | .detach _ => true
  | .attached _ => true
  | .writeUs _ _ => true
  | .readUs _ => true
  | .ovf => false
  | .tick => false

end Sys2Proof
end

