-- ==== Sys2Proof/WellFormed.lean ====
section
/-! DEFINITION. What the encoding admits of an operation's operands, for an instance's parameters
(spec/30_encoding.md R73, R75). -/

namespace Sys2Proof

/-- `chan` names the inert handle or a slot that exists: `chan <= N_CH` (R71, R75). -/
def chanOk (c : Config) (ch : BitVec 4) : Bool := decide (ch.toNat ≤ c.nCh)

/-- `pin` is an identifier of `PIN_W` bits (R21, R73). -/
def pinOk (c : Config) (pin : BitVec 7) : Bool := decide (pin.toNat < 2 ^ c.pinW)

/-- The operation can be encoded by a word that is not reserved (R75). -/
def Instr.wellFormed (c : Config) : Instr → Bool
  | .construct => true
  | .attach ch pin => chanOk c ch && pinOk c pin
  | .detach ch => chanOk c ch
  | .attached ch => chanOk c ch
  | .writeUs ch _ => chanOk c ch
  | .readUs ch => chanOk c ch
  | .ovf => true
  | .tick => true

end Sys2Proof
end

