-- ==== Sys2Proof/Decode.lean ====
section
/-! DEFINITION. Decoding of command words and strobes, the encoder, and the words' bytes
(spec/30_encoding.md R71 to R73, R75, R76; spec/20_memory.md R63). -/

namespace Sys2Proof

/-- Why a code is no operation: the grounds of R75, and what the port carried instead of a code. -/
inductive DecodeError where
  /-- `opcode` is 0x0 or 0x7 to 0xF (R75). -/
  | reservedOpcode
  /-- `chan` is above `N_CH` (R75). -/
  | chanOutOfRange
  /-- Bits 23:16 are not 0 (R75). -/
  | zeroFieldNotZero
  /-- `chan` of CONSTRUCT, or operand bits that R73 says must be 0, are not 0 (R75). -/
  | mustBeZero
  /-- The strobe is 0: no event (R76). -/
  | noEvent
  /-- Fewer bytes than one command word. -/
  | tooShort
deriving DecidableEq, Repr

/-- `opcode`, bits 31:28 (R71). -/
def opcodeField (w : Word) : BitVec 4 := w.extractLsb' 28 4
/-- `chan`, bits 27:24 (R71). -/
def chanField (w : Word) : BitVec 4 := w.extractLsb' 24 4
/-- `zero`, bits 23:16 (R71). -/
def zeroField (w : Word) : Byte := w.extractLsb' 16 8
/-- `operand`, bits 15:0 (R71). -/
def operandField (w : Word) : Half := w.extractLsb' 0 16

/-- A command whose operand must be 0 (R73). -/
def decodeNoOperand (w : Word) (i : Instr) : Except DecodeError Instr :=
  if operandField w = 0 then .ok i else .error .mustBeZero

/-- CONSTRUCT: `chan` and `operand` must be 0 (R73). -/
def decodeConstruct (w : Word) : Except DecodeError Instr :=
  if chanField w = 0 then decodeNoOperand w .construct else .error .mustBeZero

/-- ATTACH: `operand[15:PIN_W]` must be 0, the rest is the pin (R73). -/
def decodeAttach (c : Config) (w : Word) : Except DecodeError Instr :=
  if (operandField w).toNat < 2 ^ c.pinW then .ok (.attach (chanField w) ((operandField w).setWidth 7))
  else .error .mustBeZero

/-- A command word (R71 to R73), or the ground on which it is reserved (R75). -/
def decode (c : Config) (w : Word) : Except DecodeError Instr :=
  if zeroField w ≠ 0 then .error .zeroFieldNotZero
  else if c.nCh < (chanField w).toNat then .error .chanOutOfRange
  else match (opcodeField w).toNat with
    | 1 => decodeConstruct w
    | 2 => decodeAttach c w
    | 3 => decodeNoOperand w (.detach (chanField w))
    | 4 => decodeNoOperand w (.attached (chanField w))
    | 5 => .ok (.writeUs (chanField w) (operandField w))
    | 6 => decodeNoOperand w (.readUs (chanField w))
    | _ => .error .reservedOpcode

/-- The two lines that carry a strobe (R76). -/
inductive Line where
  | ovf | tick
deriving DecidableEq, Repr

/-- What an operation is encoded by: a word on `cmd`, or a 1-bit strobe on its own line (R71, R76). -/
inductive Code where
  | word (w : Word)
  | strobe (line : Line) (bit : BitVec 1)
deriving DecidableEq, Repr

/-- The operation a code stands for. -/
def decodeCode (c : Config) : Code → Except DecodeError Instr
  | .word w => decode c w
  | .strobe .ovf b => if b = 1 then .ok .ovf else .error .noEvent
  | .strobe .tick b => if b = 1 then .ok .tick else .error .noEvent

/-- The four fields of a command word, laid out as R71 says. -/
def commandWord (opcode chan : BitVec 4) (operand : Half) : Word := opcode ++ chan ++ (0 : Byte) ++ operand

/-- The code of an operation (R71 to R73, R76). -/
def encode : Instr → Code
  | .construct => .word (commandWord 1 0 0)
  | .attach ch pin => .word (commandWord 2 ch (pin.setWidth 16))
  | .detach ch => .word (commandWord 3 ch 0)
  | .attached ch => .word (commandWord 4 ch 0)
  | .writeUs ch width => .word (commandWord 5 ch width)
  | .readUs ch => .word (commandWord 6 ch 0)
  | .ovf => .strobe .ovf 1
  | .tick => .strobe .tick 1

/-- A word serialised on a narrower bus, bits 7:0 first (spec/20_memory.md R63). -/
def bytesOfWord (w : Word) : List Byte :=
  [w.extractLsb' 0 8, w.extractLsb' 8 8, w.extractLsb' 16 8, w.extractLsb' 24 8]

/-- The word whose serialisation is the four bytes (R63). -/
def wordOfBytes (b0 b1 b2 b3 : Byte) : Word := b3 ++ b2 ++ b1 ++ b0

/-- The next command of a serialised stream, with the bytes after it (R63, R71: every command is one word). -/
def decodeBytes (c : Config) : List Byte → Except DecodeError (Instr × List Byte)
  | b0 :: b1 :: b2 :: b3 :: rest => (decode c (wordOfBytes b0 b1 b2 b3)).map (·, rest)
  | _ => .error .tooShort

/-- The operation whose bits are `w`, numbered as spec/opcode_table.json numbers them. A row of at most 8 bits is
a strobe of format EVT1; both strobes are encoded `1` (R76), and the block's own strobe input is `ovf` (R70), so
that is the one read here (log 15). -/
def decodeTableWord (nbits w : Nat) : Option Instr :=
  if nbits ≤ 8 then
    if w < 2 then (decodeCode Config.default (.strobe .ovf (BitVec.ofNat 1 w))).toOption else none
  else if w < 2 ^ 32 then (decodeBytes Config.default (bytesOfWord (BitVec.ofNat 32 w))).toOption.map Prod.fst
  else none

end Sys2Proof
end

