-- ==== Sys2Proof/Machine/Encoder.lean ====
section
/-! DEFINITION. The pulse encoder: the pure functions ENC and DEC, the sizing of the sync slot, the constraints on
the parameters (spec/40_pulse_encoder.md R90 to R95, R99, R100; spec/00_scope.md R10). -/

namespace Sys2Proof.Machine

/-- R90: the width clamped to `MIN_PULSE_US .. MAX_PULSE_US`, for every integer. -/
def clampUs (c : Config) (w : Int) : Nat :=
  if w < (c.minPulseUs : Int) then c.minPulseUs
  else if (c.maxPulseUs : Int) < w then c.maxPulseUs
  else w.toNat

/-- R91: the adjusted width, the overhead taken off after the clamp. -/
def adjustedUs (c : Config) (w : Int) : Nat := clampUs c w - c.overheadUs

/-- R92: the whole blocks of an adjusted width. -/
def blocksOf (c : Config) (a : Nat) : Nat := a / c.blockUs

/-- R93: the counter value that overflows after the rest of an adjusted width, `255 - 2 r`. -/
def remainderOf (c : Config) (a : Nat) : Nat := 255 - c.ticksPerUs * (a % c.blockUs)

/-- ENC (R90 to R93): the pair (tick blocks, remainder) of a width in microseconds. -/
def enc (c : Config) (w : Int) : Byte × Byte :=
  (BitVec.ofNat 8 (blocksOf c (adjustedUs c w)), BitVec.ofNat 8 (remainderOf c (adjustedUs c w)))

/-- DEC (R95): the width in microseconds that a pair stands for. -/
def dec (c : Config) (b r : Byte) : Nat := c.blockUs * b.toNat + (255 - r.toNat) / c.ticksPerUs + c.overheadUs

/-- `SYNC_BLOCKS` (R99): only the division of the encoder, no clamp, no overhead (C8). -/
def syncBlocks (c : Config) : Nat := (c.framePeriodUs - c.nCh * c.defaultPulseUs) / c.blockUs

/-- The 16-bit datapath of R100 for an adjusted width, at the default block of 128 us and two ticks a
microsecond: `B = a[15:7]`, `R = {~a[6:0], 1}`. -/
def encDatapath (a : Half) : Byte × Byte :=
  ((a.extractLsb' 7 9).setWidth 8, ~~~(a.extractLsb' 0 7) ++ (1 : BitVec 1))

/-- The constraints every instance meets (R10), with R7's consequence that a block is one period of the 8-bit
counter, `BLOCK_US * TICKS_PER_US = 256`. -/
abbrev ConfigValid (c : Config) : Prop :=
  (1 ≤ c.nCh ∧ c.nCh ≤ 6) ∧
  (c.overheadUs ≤ c.minPulseUs ∧ c.minPulseUs ≤ c.defaultPulseUs ∧ c.defaultPulseUs ≤ c.maxPulseUs ∧
    c.maxPulseUs ≤ 32767) ∧
  (c.maxPulseUs - c.overheadUs) / c.blockUs ≤ 254 ∧
  (1 ≤ syncBlocks c ∧ syncBlocks c ≤ 254) ∧
  c.nCh * c.defaultPulseUs + c.blockUs ≤ c.framePeriodUs ∧
  (1 ≤ c.pinW ∧ c.pinW ≤ 7) ∧
  c.blockUs * c.ticksPerUs = 256

end Sys2Proof.Machine
end

