-- ==== Sys2Proof/Machine/PinMap.lean ====
section
/-! DEFINITION. The digital I/O's state for every pin, as a sparse list in one canonical form
(spec/10_state.md R36, spec/60_exceptions.md R171). -/

namespace Sys2Proof.Machine

/-- `pinMode[p]` (R36). -/
inductive PinMode where
  /-- The block has never made the pin an output. -/
  | unset
  | output
deriving DecidableEq, Repr

/-- A logic level that PinWrite sets (R13). -/
inductive Level where
  | low | high
deriving DecidableEq, Repr

/-- `pinLevel[p]` (R36). -/
inductive PinLevel where
  /-- The block has never driven the pin; its level is unknown and has no value here (R172). -/
  | unset
  | driven (l : Level)
deriving DecidableEq, Repr

/-- What the block has done to one pin. -/
structure Pin where
  mode : PinMode := .unset
  level : PinLevel := .unset
deriving DecidableEq, Repr

/-- Pins by number, strictly rising, none listed whose mode and level are both `UNSET`. -/
abbrev PinMap := List (Nat × Pin)

/-- The state of pin `p`; an unlisted pin is `UNSET` (R36, R42). -/
def PinMap.get : PinMap → Nat → Pin
  | [], _ => {}
  | (q, v) :: rest, p => if p = q then v else PinMap.get rest p

/-- The map with pin `p` at `v`, for a `v` that is not all `UNSET`. -/
def PinMap.insert (p : Nat) (v : Pin) : PinMap → PinMap
  | [] => [(p, v)]
  | (q, u) :: rest =>
    if p < q then (p, v) :: (q, u) :: rest
    else if p = q then (p, v) :: rest
    else (q, u) :: PinMap.insert p v rest

/-- `pinMode[p] <- OUTPUT` (R171). -/
def PinMap.makeOutput (m : PinMap) (p : Nat) : PinMap := PinMap.insert p { PinMap.get m p with mode := .output } m

/-- `pinLevel[p] <- l` (R171). -/
def PinMap.drive (m : PinMap) (p : Nat) (l : Level) : PinMap :=
  PinMap.insert p { PinMap.get m p with level := .driven l } m

/-- Every listed number is above `lo`, the list rises strictly, and no entry is all `UNSET`. -/
def PinMap.wfAbove : Option Nat → PinMap → Bool
  | _, [] => true
  | none, (q, v) :: rest => decide (v ≠ {}) && PinMap.wfAbove (some q) rest
  | some lo, (q, v) :: rest => decide (lo < q) && decide (v ≠ {}) && PinMap.wfAbove (some q) rest

/-- The canonical form, so that equal pin states are equal lists. -/
def PinMap.wf (m : PinMap) : Bool := PinMap.wfAbove none m

end Sys2Proof.Machine
end

