-- ==== Sys2Proof/Machine/State.lean ====
section
/-! DEFINITION. The state of the block and of the two collaborators it drives, and its reset values
(spec/10_state.md R20 to R42, spec/70_reset_and_hazards.md R185, R186). -/

namespace Sys2Proof.Machine

/-- One channel slot (R21). -/
structure Slot where
  pinId : BitVec 7
  pinActive : Bool
  tickBlocks : Byte
  remainder : Byte
deriving DecidableEq, Repr

/-- The command in flight (R37): the decoded command, the index of its next micro-step, and the value it has
computed so far and will answer with (what READ_US has read, R98; log 12). -/
structure InFlight where
  cmd : Instr
  next : Nat
  acc : Half
deriving DecidableEq, Repr

/-- A pin primitive (R13, R171). -/
inductive PinRequest where
  | modeOutput (p : BitVec 7)
  | write (p : BitVec 7) (l : Level)
deriving DecidableEq, Repr

/-- A timer primitive (R13, R168). -/
inductive TimerRequest where
  | config
  | load (v : Byte)
  | ovfEnable
deriving DecidableEq, Repr

/-- A request on one of the two collaborator ports (R77). -/
inductive Request where
  | tmr (r : TimerRequest)
  | pin (r : PinRequest)
deriving DecidableEq, Repr

/-- Everything the spec gives the machine, and the environment's inputs as plain data. -/
structure State where
  /-- The instance's parameters (R6, R8); no step writes them (log 1). -/
  cfg : Config
  /-- The channel table, `slot[0]` to `slot[N_CH]` (R20). -/
  table : List Slot
  /-- The channel cursor (R29). -/
  cur : BitVec 3
  /-- The ISR iteration counter (R30). -/
  iter : Byte
  /-- The instance counter (R31). -/
  instCount : BitVec 3
  /-- The one-shot timer started flag (R32). -/
  started : Bool
  /-- `CNT`, the hardware counter (R35). -/
  cnt : Byte
  /-- `TMR_ON`: the timer is configured and counts (R35). -/
  tmrOn : Bool
  /-- `OVIE`: overflow interrupt enable (R35). -/
  ovie : Bool
  /-- `OVF_PEND`: an overflow whose handler has not run yet (R35, R163). -/
  ovfPend : Bool
  /-- `pinMode[p]` and `pinLevel[p]` (R36). -/
  pins : PinMap
  /-- The command in flight, if any (R37). -/
  inFlight : Option InFlight
  /-- TICK steps since reset (R38). -/
  now : Nat
  /-- The pin primitives issued so far, oldest first, each with the `now` of its issue (R38, R203). -/
  trace : List (Nat × PinRequest)
  /-- The `rsp` port: the response word of the last step, if one completed a command (R70, R74). -/
  rsp : Option Word
  /-- The `tmr` and `pin` ports: the requests of the last step, in order (R70, R77). -/
  reqs : List Request
  /-- The response words so far, oldest first (R203). -/
  responses : List Word
  /-- The `cmd` port: the words the host has still to issue, oldest first (R70, R71). -/
  cmdWords : List Word
  /-- The model's own: who moves in the coming steps, oldest first (R58, R59; log 2). -/
  turns : List Turn
  /-- The model's own: what `Config.freeTurn` is applied to when `turns` is empty (log 2). -/
  turnCount : Nat
deriving DecidableEq, Repr

/-- Why a step stops with a fault. -/
inductive Fault where
  /-- An access to slot `i` of the table, which does not exist (R51: "indices above `N_CH` do not exist"). Raised by
  the one slot read and the one slot write. Safe; no state that meets the invariant raises it. -/
  | noSuchSlot (i : Nat)
deriving DecidableEq, Repr

/-- Why an operation is refused. -/
inductive Refusal where
  /-- An instruction without a meaning yet. Raised by `exec`'s arms only; none is left. Safe. -/
  | notModelled (mnemonic : String)
  /-- A command issued while another one is in flight, which the host must not do and for which the spec gives no
  effect (R74, R189 a). Raised by the shared command operation; the step never issues one. Safe. -/
  | commandsOverlap
deriving DecidableEq, Repr

/-- The sync slot after reset: `(SYNC_BLOCKS, SYNC_REMAINDER)`, no pin (R39, R40). -/
def Slot.resetSync (c : Config) : Slot :=
  { pinId := 0, pinActive := false, tickBlocks := BitVec.ofNat 8 (syncBlocks c), remainder := c.syncRemainder }

/-- A servo slot after reset: `ENC(DEFAULT_PULSE_US)`, no pin (R39, R40). -/
def Slot.resetServo (c : Config) : Slot :=
  { pinId := 0, pinActive := false, tickBlocks := (enc c c.defaultPulseUs).1, remainder := (enc c c.defaultPulseUs).2 }

/-- The state after reset of an instance with parameters `c` (R39 to R42). `CNT` is named 0 where the spec gives
no value (DESIGN CHOICE, log 3), the ports and the environment's inputs are empty (DESIGN CHOICE, log 4). -/
def State.resetWith (c : Config) : State where
  cfg := c
  table := Slot.resetSync c :: List.replicate c.nCh (Slot.resetServo c)
  cur := 0
  iter := 0
  instCount := 0
  started := false
  cnt := 0
  tmrOn := false
  ovie := false
  ovfPend := false
  pins := []
  inFlight := none
  now := 0
  trace := []
  rsp := none
  reqs := []
  responses := []
  cmdWords := []
  turns := []
  turnCount := 0

/-- The machine right after reset, with the default parameters (R186). -/
def State.reset : State := State.resetWith Config.default

end Sys2Proof.Machine
end

