-- ==== Sys2Proof/Machine/Ops.lean ====
section
/-! DEFINITION. The named operations over the table, the registers, the timer and the pins, and the machine's one
exception-like transfer, the entry of the overflow handler (spec/00_scope.md R13; spec/60_exceptions.md R163, R166,
R168, R171). -/

namespace Sys2Proof.Machine

/-! ### The channel table (R50 to R53, R62) -/

/-- `slot[i]` as it reads: slot 0's `pin.active` is hard-wired 0 (R22); a slot above `N_CH` does not exist (R51). -/
def State.slot (s : State) (i : Nat) : Except Fault Slot :=
  match s.table[i]? with
  | none => .error (.noSuchSlot i)
  | some sl => .ok (if i = 0 then { sl with pinActive := false } else sl)

/-- A write of one field of `slot[i]`. Slot 0 is protected: nothing is written there (R22, R62). -/
def State.updateSlot (s : State) (i : Nat) (f : Slot → Slot) : Except Fault State :=
  if i = 0 then .ok s
  else match s.table[i]? with
    | none => .error (.noSuchSlot i)
    | some sl => .ok { s with table := s.table.set i (f sl) }

/-- `slot[i].pin.id <- p`. -/
def State.writePinId (s : State) (i : Nat) (p : BitVec 7) : Except Fault State :=
  s.updateSlot i ({ · with pinId := p })

/-- `slot[i].pin.active <- b`. -/
def State.writePinActive (s : State) (i : Nat) (b : Bool) : Except Fault State :=
  s.updateSlot i ({ · with pinActive := b })

/-- `slot[i].tickBlocks <- v`. -/
def State.writeTickBlocks (s : State) (i : Nat) (v : Byte) : Except Fault State :=
  s.updateSlot i ({ · with tickBlocks := v })

/-- `slot[i].remainder <- v`. -/
def State.writeRemainder (s : State) (i : Nat) (v : Byte) : Except Fault State :=
  s.updateSlot i ({ · with remainder := v })

/-! ### The global registers (R28 to R32) -/

/-- `started <- 1`. -/
def State.setStarted (s : State) : State := { s with started := true }

/-- `instCount <- v`. -/
def State.setInstCount (s : State) (v : BitVec 3) : State := { s with instCount := v }

/-- `cur <- c`, `iter <- n`: the sequencer registers, written by the handler only (R29, R30). -/
def State.setSequencer (s : State) (c : BitVec 3) (n : Byte) : State := { s with cur := c, iter := n }

/-! ### The timer collaborator (R168) -/

/-- `TimerConfig()`: normal counting mode, `TMR_ON <- 1`. -/
def State.timerConfig (s : State) : State := { s with tmrOn := true, reqs := s.reqs ++ [.tmr .config] }

/-- `TimerLoad(v)`: `CNT <- v`; raises no overflow, whatever `v` is. -/
def State.timerLoad (s : State) (v : Byte) : State := { s with cnt := v, reqs := s.reqs ++ [.tmr (.load v)] }

/-- `OvfEnable()`: `OVIE <- 1`, `OVF_PEND <- 0`. -/
def State.ovfEnable (s : State) : State :=
  { s with ovie := true, ovfPend := false, reqs := s.reqs ++ [.tmr .ovfEnable] }

/-- One count of the counter: up by one, from 255 to 0 raising the overflow if it is enabled (R118). -/
def State.countUp (s : State) : State :=
  if s.cnt = 255 then { s with cnt := 0, ovfPend := s.ovie || s.ovfPend } else { s with cnt := s.cnt + 1 }

/-- Time passes by one tick (R38). -/
def State.advanceNow (s : State) : State := { s with now := s.now + 1 }

/-! ### The digital I/O collaborator (R36, R171) -/

/-- `pinMode[p]`. -/
def State.pinMode (s : State) (p : BitVec 7) : PinMode := (PinMap.get s.pins p.toNat).mode

/-- `pinLevel[p]`. -/
def State.pinLevel (s : State) (p : BitVec 7) : PinLevel := (PinMap.get s.pins p.toNat).level

/-- `PinModeOutput(p)`, appended to the trace with the current `now`. -/
def State.pinModeOutput (s : State) (p : BitVec 7) : State :=
  { s with pins := PinMap.makeOutput s.pins p.toNat, trace := s.trace ++ [(s.now, .modeOutput p)],
           reqs := s.reqs ++ [.pin (.modeOutput p)] }

/-- `PinWrite(p, l)`, appended to the trace with the current `now`. -/
def State.pinWrite (s : State) (p : BitVec 7) (l : Level) : State :=
  { s with pins := PinMap.drive s.pins p.toNat l, trace := s.trace ++ [(s.now, .write p l)],
           reqs := s.reqs ++ [.pin (.write p l)] }

/-- `PinWrite` for a slot that drives its pin; "Inactive slots are never driven" (R21, R117). -/
def State.driveSlot (s : State) (sl : Slot) (l : Level) : State :=
  if sl.pinActive then s.pinWrite sl.pinId l else s

/-! ### The request ports (R77) -/

/-- `tmr_op` and `tmr_val`. -/
def TimerRequest.port : TimerRequest → BitVec 2 × Byte
  | .config => (0, 0)
  | .load v => (1, v)
  | .ovfEnable => (2, 0)

/-- `pin_op`, `pin_id` and `pin_level`; the identifier in 7 bits, the widest instance. -/
def PinRequest.port : PinRequest → BitVec 1 × BitVec 7 × BitVec 1
  | .modeOutput p => (0, p, 0)
  | .write p .low => (1, p, 0)
  | .write p .high => (1, p, 1)

/-! ### The response port and the command in flight (R37, R74) -/

/-- The response word is put on `rsp`, and the command in flight, if any, has ended (R13, R74). -/
def State.answer (s : State) (w : Word) : State :=
  { s with rsp := some w, responses := s.responses ++ [w], inFlight := none }

/-- A command's next micro-step is `n`, its value so far `acc` (R37). -/
def State.setInFlight (s : State) (i : Instr) (n : Nat) (acc : Half) : State :=
  { s with inFlight := some { cmd := i, next := n, acc := acc } }

/-! ### Entry of the interrupt handler (R163, R166) -/

/-- Taking the overflow interrupt: the pending bit is cleared, nothing is saved, the host's command in flight is
not advanced, and the handler's first statement counts the overflow, modulo 256 (R110 step 1, R111, R163, R166). -/
def State.enterHandler (s : State) : State := { s with ovfPend := false, iter := s.iter + 1 }

/-- Return from the handler: it re-enables nothing and restores nothing (R167). -/
def State.leaveHandler (s : State) : State := s

/-! ### The environment's inputs and reset (R58, R70, R185) -/

/-- Who moves in this step: the next turn of the list, or a free choice (log 2). -/
def State.nextTurn (s : State) : Turn :=
  match s.turns with
  | t :: _ => t
  | [] => Config.freeTurn s.turnCount

/-- The turn is used up. -/
def State.takeTurn (s : State) : State :=
  match s.turns with
  | _ :: ts => { s with turns := ts }
  | [] => { s with turnCount := s.turnCount + 1 }

/-- A step begins with its output ports not valid (R70: what they carry is of one step; log 20). -/
def State.clearPorts (s : State) : State := { s with rsp := none, reqs := [] }

/-- `rst` is 1: every piece of state takes its reset value; the parameters and the environment's own inputs are
not the block's to reset (R185, log 19). -/
def State.resetStep (s : State) : State :=
  { State.resetWith s.cfg with cmdWords := s.cmdWords, turns := s.turns, turnCount := s.turnCount }

end Sys2Proof.Machine
end

