-- ==== Sys2Proof/Machine/Flags.lean ====
section
/-! DEFINITION. The response word and its one flag, ILL (spec/30_encoding.md R74, R75; spec/60_exceptions.md R161).
The block has no other flag. -/

namespace Sys2Proof.Machine

/-- The response of a command that is no reserved encoding: `ILL` = 0, bits 30:16 zero, the value below (R74). -/
def responseWord (value : Half) : Word := (0 : BitVec 1) ++ (0 : BitVec 15) ++ value

/-- The response of a reserved encoding: `ILL` = 1, `value` = 0 (R75). -/
def responseIll : Word := (1 : BitVec 1) ++ (0 : BitVec 15) ++ (0 : Half)

/-- `ILL`, bit 31 of a response (R74). -/
def illBit (w : Word) : Bool := w.getLsbD 31

/-- `value`, bits 15:0 of a response (R74). -/
def valueField (w : Word) : Half := w.extractLsb' 0 16

/-- `respond(v)` (R13): the command ends with value `v`. -/
def State.respond (s : State) (v : Half) : State := s.answer (responseWord v)

/-- A reserved command: no state changes, no primitive is issued, the answer is ILL (R75). -/
def State.respondIll (s : State) : State := s.answer responseIll

end Sys2Proof.Machine
end

