-- ==== Sys2Proof/Machine/Operands.lean ====
section
/-! DEFINITION. Operand forms of the commands (spec/30_encoding.md R73; spec/00_scope.md R12). No operand is scaled
or shifted. -/

namespace Sys2Proof.Machine

/-- The slot index a `chan` field names, zero-extended (R71, R73). -/
def slotIndex (ch : BitVec 4) : Nat := ch.toNat

/-- The handle is the inert one, index 0 (R33, R143). -/
def isInert (ch : BitVec 4) : Bool := decide (slotIndex ch = 0)

/-- `sext_16(operand)`: a pulse width in microseconds, -32768..32767 (R12, R73). -/
def widthOperand (w : Half) : Int := w.toInt

/-- The pair WRITE_US stores for a width operand (R90 to R93). -/
def encOperand (c : Config) (w : Half) : Byte × Byte := enc c (widthOperand w)

end Sys2Proof.Machine
end

