-- ==== Sys2Proof/Machine/MicroStep.lean ====
section
/-! DEFINITION. Micro-steps and the one way a command goes through them (spec/00_scope.md R15;
spec/10_state.md R37; spec/20_memory.md R53, R58). -/

namespace Sys2Proof.Machine

/-- A micro-step: it reads or writes at most one field of state, or issues one primitive (R15); CONSTRUCT's
read-modify-write of `instCount` is one (R55). -/
inductive MicroOp where
  /-- CONSTRUCT's atomic step (R140). -/
  | takeIndex
  | timerConfig
  | timerLoad (v : Byte)
  | ovfEnable
  | setStarted
  | pinModeOutput (p : BitVec 7)
  | writePinId (i : Nat) (p : BitVec 7)
  | writePinActive (i : Nat) (b : Bool)
  | writeTickBlocks (i : Nat) (v : Byte)
  | writeRemainder (i : Nat) (v : Byte)
  /-- The value becomes `slot[i].pin.active` (R145). -/
  | readPinActive (i : Nat)
  /-- The value becomes `slot[i].tickBlocks` (R98 micro-step 1). -/
  | readTickBlocks (i : Nat)
  /-- The value, `B` of the step before, becomes `DEC(B, slot[i].remainder)` (R98 micro-step 2, R95). -/
  | readRemainder (i : Nat)
deriving DecidableEq, Repr

/-- The next free index, if there is one (R140): the new count and the handle that is answered. -/
def nextIndex (c : Config) (n : BitVec 3) : BitVec 3 × Half :=
  if n.toNat < c.nCh then (n + 1, (n + 1).setWidth 16) else (n, 0)

/-- DEC of READ_US as the 16-bit value it answers (R9, R95). -/
def decValue (c : Config) (acc : Half) (r : Byte) : Half := BitVec.ofNat 16 (dec c (acc.setWidth 8) r)

/-- A micro-step's effect on the state and on the command's value. -/
def MicroOp.run (s : State) (acc : Half) : MicroOp → Except Fault (State × Half)
  | .takeIndex => .ok (s.setInstCount (nextIndex s.cfg s.instCount).1, (nextIndex s.cfg s.instCount).2)
  | .timerConfig => .ok (s.timerConfig, acc)
  | .timerLoad v => .ok (s.timerLoad v, acc)
  | .ovfEnable => .ok (s.ovfEnable, acc)
  | .setStarted => .ok (s.setStarted, acc)
  | .pinModeOutput p => .ok (s.pinModeOutput p, acc)
  | .writePinId i p => (s.writePinId i p).map (·, acc)
  | .writePinActive i b => (s.writePinActive i b).map (·, acc)
  | .writeTickBlocks i v => (s.writeTickBlocks i v).map (·, acc)
  | .writeRemainder i v => (s.writeRemainder i v).map (·, acc)
  | .readPinActive i => (s.slot i).map fun sl => (s, if sl.pinActive then 1 else 0)
  | .readTickBlocks i => (s.slot i).map fun sl => (s, sl.tickBlocks.setWidth 16)
  | .readRemainder i => (s.slot i).map fun sl => (s, decValue s.cfg acc sl.remainder)

/-- Where command `i` stands: a new one at index `first` with value `acc0`, the one in flight where R37 says;
`none` where another command is in flight, which the host must not let happen (R74, R189 a). -/
def State.position (s : State) (i : Instr) (first : Nat) (acc0 : Half) : Option (Nat × Half) :=
  match s.inFlight with
  | none => some (first, acc0)
  | some f => if f.cmd = i then some (f.next, f.acc) else none

/-- The state after a micro-step: the answer if it was the last one (R74), else the command stays in flight. -/
def State.afterMicroStep (s : State) (i : Instr) (n total : Nat) (acc : Half) : State :=
  if n < total then s.setInFlight i n acc else s.respond acc

/-- The host's next micro-step of command `i`, whose micro-steps are `prog` (R15, R58; log 13). A new command starts at
index `first` with value `acc0`. A command with no micro-step left answers (R74). An operation that only a reserved
word could carry answers ILL (R75). -/
def State.perform (s : State) (i : Instr) (prog : List MicroOp) (first : Nat) (acc0 : Half) :
    Host.Outcome State Fault Refusal :=
  match s.position i first acc0 with
  | none => .refused .commandsOverlap
  | some (k, acc) =>
    if i.wellFormed s.cfg then
      match prog[k]? with
      | none => .next (s.respond acc)
      | some op =>
        match MicroOp.run s acc op with
        | .error f => .fault f
        | .ok (t, v) => .next (t.afterMicroStep i (k + 1) prog.length v)
    else .next s.respondIll

end Sys2Proof.Machine
end

