-- ==== Sys2Proof/Machine/PulseCommands.lean ====
section
/-! DEFINITION. The commands that apply the pulse encoder to the table: WRITE_US, READ_US
(spec/40_pulse_encoder.md R97, R98). -/

namespace Sys2Proof.Machine

/-- WRITE_US's two micro-steps, none for the inert handle (R97, R143); their order is the parameter
`WRITE_ORDER` (U8). -/
def writeUsSteps (c : Config) (ch : BitVec 4) (width : Half) : List MicroOp :=
  if isInert ch then []
  else match c.writeOrder with
    | .byRule => [.writeTickBlocks (slotIndex ch) (encOperand c width).1, .writeRemainder (slotIndex ch) (encOperand c width).2]
    | .swapped => [.writeRemainder (slotIndex ch) (encOperand c width).2, .writeTickBlocks (slotIndex ch) (encOperand c width).1]

/-- WRITE_US `ch, width` (R97). -/
def execWriteUs (ch : BitVec 4) (width : Half) (s : State) : Host.Outcome State Fault Refusal :=
  s.perform (.writeUs ch width) (writeUsSteps s.cfg ch width) 0 0

/-- READ_US's two micro-steps, none for the inert handle (R98, R143). -/
def readUsSteps (ch : BitVec 4) : List MicroOp :=
  if isInert ch then [] else [.readTickBlocks (slotIndex ch), .readRemainder (slotIndex ch)]

/-- READ_US `ch` (R98). -/
def execReadUs (ch : BitVec 4) (s : State) : Host.Outcome State Fault Refusal :=
  s.perform (.readUs ch) (readUsSteps ch) 0 0

end Sys2Proof.Machine
end

