-- ==== Sys2Proof/Machine/Registration.lean ====
section
/-! DEFINITION. Channel registration: CONSTRUCT, ATTACH with ACTIVATE, DETACH, ATTACHED
(spec/42_channel_registration.md R140 to R147). -/

namespace Sys2Proof.Machine

/-- CONSTRUCT's one micro-step (R140). -/
def constructSteps : List MicroOp := [.takeIndex]

/-- CONSTRUCT (R140). -/
def execConstruct (s : State) : Host.Outcome State Fault Refusal := s.perform .construct constructSteps 0 0

/-- ACTIVATE's four micro-steps (R142). -/
def activateSteps : List MicroOp := [.timerConfig, .timerLoad 0, .ovfEnable, .setStarted]

/-- ATTACH's step 2: nothing for the inert handle, else the pin made an output, then the two pin fields (R141); the
fields' order is the parameter `WRITE_ORDER` (U8). -/
def bindSteps (c : Config) (ch : BitVec 4) (pin : BitVec 7) : List MicroOp :=
  if isInert ch then []
  else match c.writeOrder with
    | .byRule => [.pinModeOutput pin, .writePinId (slotIndex ch) pin, .writePinActive (slotIndex ch) true]
    | .swapped => [.pinModeOutput pin, .writePinActive (slotIndex ch) true, .writePinId (slotIndex ch) pin]

/-- ATTACH's micro-steps, activation first and whatever `ch` is (R141). -/
def attachSteps (c : Config) (ch : BitVec 4) (pin : BitVec 7) : List MicroOp := activateSteps ++ bindSteps c ch pin

/-- ATTACH's step 1: activation is passed over once the timer is started (R141, R142). -/
def attachFirst (s : State) : Nat := if s.started then activateSteps.length else 0

/-- ATTACH `ch, pin` (R141); it answers `ch`. -/
def execAttach (ch : BitVec 4) (pin : BitVec 7) (s : State) : Host.Outcome State Fault Refusal :=
  s.perform (.attach ch pin) (attachSteps s.cfg ch pin) (attachFirst s) (ch.setWidth 16)

/-- DETACH's micro-step, none for the inert handle (R144, R143). -/
def detachSteps (ch : BitVec 4) : List MicroOp :=
  if isInert ch then [] else [.writePinActive (slotIndex ch) false]

/-- DETACH `ch` (R144). -/
def execDetach (ch : BitVec 4) (s : State) : Host.Outcome State Fault Refusal :=
  s.perform (.detach ch) (detachSteps ch) 0 0

/-- ATTACHED's micro-step, none for the inert handle (R145, R143). -/
def attachedSteps (ch : BitVec 4) : List MicroOp :=
  if isInert ch then [] else [.readPinActive (slotIndex ch)]

/-- ATTACHED `ch` (R145). -/
def execAttached (ch : BitVec 4) (s : State) : Host.Outcome State Fault Refusal :=
  s.perform (.attached ch) (attachedSteps ch) 0 0

end Sys2Proof.Machine
end

