-- ==== Sys2Proof/Machine/Scheduler.lean ====
section
/-! DEFINITION. The scheduler: the overflow handler OVF and the timer's TICK (spec/41_scheduler.md R110 to R118). -/

namespace Sys2Proof.Machine

/-- The start of the slot the cursor has just moved to: a wrap to slot 0 past `N_CH`, which drives no pin, or the
new slot's pin driven high (R110 step 3, R117). -/
def State.beginSlot (s : State) : Except Fault State :=
  if s.cfg.nCh < s.cur.toNat then .ok (s.setSequencer 0 s.iter)
  else (s.slot s.cur.toNat).map fun new => s.driveSlot new .high

/-- The true end of a slot (R110 step 3): its pin low, the cursor on by one, the iteration counter and the hardware
counter zero, then the next slot. -/
def State.endSlot (s : State) (old : Slot) : Except Fault State :=
  (((s.driveSlot old .low).setSequencer (s.cur + 1) 0).timerLoad 0).beginSlot

/-- The handler's body after it has counted the overflow (R110 steps 2 to 4); `old` is `slot[cur]` as the table
holds it at this run (R112). The comparisons are of unsigned 8-bit values (R111). -/
def State.handleSlot (s : State) (old : Slot) : Except Fault State :=
  if s.iter = old.tickBlocks then .ok (s.timerLoad old.remainder)
  else if old.tickBlocks < s.iter then s.endSlot old
  else .ok s

/-- The handler once it has been entered: it works on `slot[cur]` and returns (R110, R112, R167). -/
def State.handlerBody (s : State) : Except Fault State :=
  match s.slot s.cur.toNat with
  | .error f => .error f
  | .ok old => (s.handleSlot old).map State.leaveHandler

/-- One whole handler run (R110). -/
def State.handler (s : State) : Except Fault State := s.enterHandler.handlerBody

/-- OVF (R110). It runs whether or not `OVF_PEND` is 1: a strobe runs the handler, and it tests nothing else
(R76, R169; log 10). -/
def execOvf (s : State) : Host.Outcome State Fault Refusal :=
  match s.handler with
  | .ok t => .next t
  | .error f => .fault f

/-- TICK (R118). While `OVF_PEND` is 1 it is not enabled: no tick is taken and nothing changes (log 9). -/
def execTick (s : State) : Host.Outcome State Fault Refusal :=
  if s.ovfPend then .next s
  else if s.tmrOn then .next s.advanceNow.countUp
  else .next s.advanceNow

end Sys2Proof.Machine
end

