-- ==== Sys2Proof/Machine/Dispatch.lean ====
section
/-! DEFINITION. One arm per operation (spec/opcode_table.json). For a command, `exec` is the host's next micro-step
of it: the first one where no command is in flight, the one R37 names where this command is. -/

namespace Sys2Proof.Machine

def exec (i : Instr) (s : State) : Host.Outcome State Fault Refusal :=
  match i with
  | .construct => Sys2Proof.Machine.execConstruct s
  | .attach ch pin => Sys2Proof.Machine.execAttach ch pin s
  | .detach ch => Sys2Proof.Machine.execDetach ch s
  | .attached ch => Sys2Proof.Machine.execAttached ch s
  | .writeUs ch width => Sys2Proof.Machine.execWriteUs ch width s
  | .readUs ch => Sys2Proof.Machine.execReadUs ch s
  | .ovf => Sys2Proof.Machine.execOvf s
  | .tick => Sys2Proof.Machine.execTick s

end Sys2Proof.Machine
end

