-- ==== Sys2Proof/Machine/Arbiter.lean ====
section
/-! DEFINITION. Who moves in a step, and how a command word comes to be carried out (spec/20_memory.md R58;
spec/30_encoding.md R74, R75; spec/60_exceptions.md R164, R165; spec/70_reset_and_hazards.md R185). -/

namespace Sys2Proof.Machine

/-- A command word is accepted: its first micro-step is taken, or a reserved word is answered (R75; log 5). -/
def State.accept (s : State) (w : Word) : Host.Outcome State Fault Refusal :=
  match decode s.cfg w with
  | .ok i => exec i s
  | .error _ => .next s.respondIll

/-- The host's turn: the next micro-step of the command in flight; else the next command word, if it has one; else
the host is idle (log 22). No word is taken while a command is in flight (R74, R189 a). -/
def State.hostTurn (s : State) : Host.Outcome State Fault Refusal :=
  match s.inFlight with
  | some f => exec f.cmd s
  | none =>
    match s.cmdWords with
    | [] => .next s
    | w :: rest => State.accept { s with cmdWords := rest } w

/-- One step of the total order of R58. `rst` goes before everything (R185); a pending overflow goes before the
host (R164) and before the timer (R165), and then no turn is used up. -/
def State.arbitrate (s : State) : Host.Outcome State Fault Refusal :=
  match s.nextTurn with
  | .rst => .next s.takeTurn.resetStep
  | .timer => if s.ovfPend then exec .ovf s.clearPorts else exec .tick s.takeTurn.clearPorts
  | .host => if s.ovfPend then exec .ovf s.clearPorts else s.takeTurn.clearPorts.hostTurn

/-- The state with a command word the host is about to issue, in its turn, with no overflow pending and no command
in flight. -/
def State.withCommand (s : State) (w : Word) : State :=
  { s with cmdWords := w :: s.cmdWords, turns := .host :: s.turns, ovfPend := false, inFlight := none }

/-- The state with the `ovf` strobe at `bit`, and `rst` 0 in the coming step. -/
def State.withStrobe (s : State) (bit : Bool) : State := { s with ovfPend := bit, turns := .timer :: s.turns }

end Sys2Proof.Machine
end

