-- ==== Sys2Proof/Machine/Step.lean ====
section
/-! DEFINITION. One step of the machine (spec/20_memory.md R58), and how the host's checks place an operation where
the next step takes it. -/

namespace Sys2Proof.Machine

/-- One step: a TICK, one whole handler run, one host micro-step, or a step under `rst` (R58, R185). -/
def step (s : State) : Host.Outcome State Fault Refusal := s.arbitrate

/-- `s` with the operation whose bits are `w` where the next step takes it: a row of at most 8 bits is the `ovf`
strobe, any other a command word on the `cmd` port in the host's turn (log 14, log 15). -/
def State.withFetchWord (s : State) (nbits w : Nat) : State :=
  if nbits ≤ 8 then s.withStrobe (decide (w = 1)) else s.withCommand (BitVec.ofNat 32 w)

end Sys2Proof.Machine
end

