-- ==== Sys2Proof/Safety.lean ====
section
/-! DEFINITION. The terms in which claims are made: the invariant of a safe state, runs of ticks in the reference
timing, slot and frame durations (spec/41_scheduler.md R113 to R122; spec/70_reset_and_hazards.md R199, R201). -/

namespace Sys2Proof.Machine

/-- The next state of a step that has one. -/
def Outcome.state? : Host.Outcome State Fault Refusal → Option State
  | .next s => some s
  | .fault _ => none
  | .refused _ => none

/-- The values of a servo slot (R26): the identifier fits `PIN_W` bits, and each encoded field is a component of
some `ENC(w)`, not always of the same one (R191). -/
def ServoSlotOk (c : Config) (sl : Slot) : Prop :=
  sl.pinId.toNat < 2 ^ c.pinW ∧ (∃ w : Int, sl.tickBlocks = (enc c w).1) ∧ (∃ w : Int, sl.remainder = (enc c w).2)

/-- The invariant of the machine: the constraints on the parameters (R10), the table's length (R20), the sync slot
as reset left it (R22, R62), servo slots as R26 says, the ranges of the cursor (R113), the instance counter (R31)
and the iteration counter (R115), the canonical form of the pins, and what activation implies, an ATTACH in flight that
has come so far included (R142, R162, R168, R169). -/
structure Inv (s : State) : Prop where
  cfg_valid : ConfigValid s.cfg
  table_length : s.table.length = s.cfg.nCh + 1
  sync_slot : s.table[0]? = some (Slot.resetSync s.cfg)
  servo_slots : ∀ (i : Nat) (sl : Slot), 1 ≤ i → s.table[i]? = some sl → ServoSlotOk s.cfg sl
  cur_range : s.cur.toNat ≤ s.cfg.nCh
  iter_range : s.iter.toNat ≤ 254
  instCount_range : s.instCount.toNat ≤ s.cfg.nCh
  pins_wf : PinMap.wf s.pins = true
  started_active : s.started = true → s.tmrOn = true ∧ s.ovie = true
  ovie_on : s.ovie = true → s.tmrOn = true
  pend_enabled : s.ovfPend = true → s.ovie = true
  attach_active : ∀ (ch : BitVec 4) (pin : BitVec 7) (n : Nat) (acc : Half),
    s.inFlight = some ⟨.attach ch pin, n, acc⟩ → (1 ≤ n → s.tmrOn = true) ∧ (3 ≤ n → s.ovie = true)

/-- A command is in flight as R37 has it: a command, not a strobe, whose operands the encoding admits. -/
def InFlightOk (s : State) : Prop :=
  ∀ f, s.inFlight = some f → f.cmd.isCommand = true ∧ f.cmd.wellFormed s.cfg = true

/-- Every active slot's pin has been made an output, with what this needs of an ATTACH in flight, for the rules'
order of its micro-steps (R141, R171): past `PinModeOutput` its pin is an output, past `pin.id` its slot names it. -/
structure PinsMadeOutput (s : State) : Prop where
  by_rule : s.cfg.writeOrder = .byRule
  active_output : ∀ (i : Nat) (sl : Slot), 1 ≤ i → s.table[i]? = some sl → sl.pinActive = true →
    s.pinMode sl.pinId = .output
  attach_output : ∀ (ch : BitVec 4) (pin : BitVec 7) (n : Nat) (acc : Half),
    s.inFlight = some ⟨.attach ch pin, n, acc⟩ → 5 ≤ n → s.pinMode pin = .output
  attach_named : ∀ (ch : BitVec 4) (pin : BitVec 7) (n : Nat) (acc : Half) (sl : Slot),
    s.inFlight = some ⟨.attach ch pin, n, acc⟩ → 6 ≤ n → 1 ≤ ch.toNat → s.table[ch.toNat]? = some sl →
    sl.pinId = pin

/-- The grounds on which a command word is reserved, one for one as R75 lists them (with R73's must-be-zero fields). -/
def ReservedWord (c : Config) (w : Word) : Prop :=
  (opcodeField w).toNat = 0 ∨ 7 ≤ (opcodeField w).toNat ∨ c.nCh < (chanField w).toNat ∨ zeroField w ≠ 0 ∨
  ((opcodeField w).toNat = 1 ∧ (chanField w ≠ 0 ∨ operandField w ≠ 0)) ∨
  ((opcodeField w).toNat = 2 ∧ operandField w >>> c.pinW ≠ 0) ∨
  (((opcodeField w).toNat = 3 ∨ (opcodeField w).toNat = 4 ∨ (opcodeField w).toNat = 6) ∧ operandField w ≠ 0)

/-- The pin requests among the requests of a step (R77). -/
def pinRequests (reqs : List Request) : List PinRequest :=
  reqs.filterMap fun r => match r with
    | .pin p => some p
    | .tmr _ => none

/-- `n` micro-steps of one operation with nothing between them. -/
def execTimes : Nat → Instr → State → Host.Outcome State Fault Refusal
  | 0, _, s => .next s
  | n + 1, i, s =>
    match exec i s with
    | .next t => execTimes n i t
    | .fault f => .fault f
    | .refused r => .refused r

/-- One tick of the reference timing: a TICK and, in the same instant, the handler if it is now due (R119). -/
def refTick (s : State) : Host.Outcome State Fault Refusal :=
  match exec .tick s with
  | .next t => if t.ovfPend then exec .ovf t else .next t
  | .fault f => .fault f
  | .refused r => .refused r

/-- `n` ticks of the reference timing in which the host takes no micro-step (R119). -/
def refTicks : Nat → State → Host.Outcome State Fault Refusal
  | 0, s => .next s
  | n + 1, s =>
    match refTick s with
    | .next t => refTicks n t
    | .fault f => .fault f
    | .refused r => .refused r

/-- `T(B, R)`, the length of a slot in ticks: `256 B + (256 - R)`, or one full period for `B` = 0 (R119, R116). -/
def slotTicks (b r : Byte) : Nat := if b = 0 then 256 else 256 * b.toNat + (256 - r.toNat)

/-- The length of a frame in ticks: the sum over the slots of the table (R121). -/
def frameTicks (table : List Slot) : Nat := (table.map fun sl => slotTicks sl.tickBlocks sl.remainder).sum

/-- The instant a slot begins in the reference timing: the timer runs with its interrupt enabled, no overflow is
pending, and both counters are 0 (R110 step 3, R119). -/
def SlotBegins (s : State) : Prop :=
  s.tmrOn = true ∧ s.ovie = true ∧ s.ovfPend = false ∧ s.cnt = 0 ∧ s.iter = 0

/-- The index the cursor goes to at the end of slot `i` (R114). -/
def nextSlot (c : Config) (i : Nat) : Nat := if c.nCh < i + 1 then 0 else i + 1

/-- `pin.active` of a slot as it reads: 0 for slot 0 and for no slot (R22). -/
def readsActive (s : State) (i : Nat) : Bool :=
  match s.slot i with
  | .ok sl => sl.pinActive
  | .error _ => false

end Sys2Proof.Machine
end

