-- ==== Sys2Proof/Certificates/Slice0/Obligations.lean ====
section
/-! DEFINITION. The statements about the machine, each from the rules of spec/ it cites. Resume points of a command
are written as the record of R37: the command, the index of its next micro-step, its value so far. -/

open Sys2Proof Sys2Proof.Machine

/-! ### Encodings -/

/-- R71 to R73, R76: no operand bit is lost between an operation and its code, for every operation and instance. -/
def Obligations.DecodeOfEncode : Prop :=
  ∀ (c : Config) (i : Instr), ConfigValid c → i.wellFormed c = true → decodeCode c (encode i) = .ok i

/-- R71 to R73: a word that decodes is the encoding of what it decodes to, which is a command with legal operands. -/
def Obligations.EncodeOfDecode : Prop :=
  ∀ (c : Config) (w : Word) (i : Instr), ConfigValid c → decode c w = .ok i →
    encode i = .word w ∧ i.wellFormed c = true ∧ i.isCommand = true

/-- R75: exactly the words R75 lists are reserved, and a reserved word that the host issues changes no state, issues
no primitive and answers ILL = 1, value = 0. (That the step also uses up the turn and the word and clears the request
ports is the model's choice, logs 2, 14 and 20.) -/
def Obligations.ReservedWordsAnswerIll : Prop :=
  (∀ (c : Config) (w : Word), ConfigValid c → ((∃ e, decode c w = .error e) ↔ ReservedWord c w)) ∧
  ∀ (s : State) (w : Word) (rest : List Word), ConfigValid s.cfg → ReservedWord s.cfg w → s.nextTurn = .host →
    s.ovfPend = false → s.inFlight = none → s.cmdWords = w :: rest →
    step s = .next { s.takeTurn with cmdWords := rest, rsp := some 0x80000000, reqs := [],
                                     responses := s.responses ++ [0x80000000] }

/-- R71 to R73 and the worked encodings of 30_encoding.md section 8: one word for each command. -/
def Obligations.SpecWordsDecode : Prop :=
  decode Config.default 0x10000000 = .ok .construct ∧
  decode Config.default 0x21000009 = .ok (.attach 1 9) ∧
  decode Config.default 0x31000000 = .ok (.detach 1) ∧
  decode Config.default 0x42000000 = .ok (.attached 2) ∧
  decode Config.default 0x510005DC = .ok (.writeUs 1 1500) ∧
  decode Config.default 0x5300FFFF = .ok (.writeUs 3 (-1)) ∧
  decode Config.default 0x64000000 = .ok (.readUs 4) ∧
  decodeCode Config.default (.strobe .ovf 1) = .ok .ovf ∧
  decodeCode Config.default (.strobe .tick 1) = .ok .tick

/-- R63: a command word serialised bits 7:0 first is read back as that word, and the bytes after it are left. -/
def Obligations.SerialisedCommandsReadBack : Prop :=
  ∀ (c : Config) (w : Word) (rest : List Byte),
    decodeBytes c (bytesOfWord w ++ rest) = (decode c w).map fun i => (i, rest)

/-- R74, R75: the fields of the two kinds of response word. -/
def Obligations.ResponseWordFields : Prop :=
  (∀ v : Half, illBit (responseWord v) = false ∧ (responseWord v).extractLsb' 16 15 = 0 ∧
    valueField (responseWord v) = v) ∧
  illBit responseIll = true ∧ responseIll.extractLsb' 16 15 = 0 ∧ valueField responseIll = 0

/-! ### The step -/

/-- R58, R72: in the host's turn, with nothing pending or in flight, the step is `exec` of the command word's
operation. MODEL'S CHOICE of what stands around it: the turn is used up (log 2), so is the word (log 14), and the output
ports of the last step are cleared (log 20). -/
def Obligations.StepRunsTheIssuedCommand : Prop :=
  ∀ (s : State) (w : Word) (rest : List Word) (i : Instr), s.nextTurn = .host → s.ovfPend = false →
    s.inFlight = none → s.cmdWords = w :: rest → decode s.cfg w = .ok i →
    step s = exec i { s.takeTurn.clearPorts with cmdWords := rest }

/-- R37, R58, R118, R164, R165: the other moves. While `OVF_PEND` is 1 neither the host nor the timer moves: the step
is one handler run. Else the timer's turn is a TICK, and in the host's turn the command in flight goes on and no new word
is taken. MODEL'S CHOICE of what stands around it: the turn stands while the handler goes first and is used up otherwise
(log 2), and the output ports of the last step are cleared (log 20). -/
def Obligations.StepRunsTheAgentWhoseTurnItIs : Prop :=
  ∀ s : State,
    (s.nextTurn ≠ .rst → s.ovfPend = true → step s = exec .ovf s.clearPorts) ∧
    (s.nextTurn = .timer → s.ovfPend = false → step s = exec .tick s.takeTurn.clearPorts) ∧
    (∀ f, s.nextTurn = .host → s.ovfPend = false → s.inFlight = some f → step s = exec f.cmd s.takeTurn.clearPorts)

/-- R185: while `rst` is 1 every piece of state of the block takes its reset value, no command is accepted and no
handler runs. (That the parameters and the environment's inputs stay is the model's choice, log 19; what `CNT`, the
ports and the sequence of responses hold is the model's choice, logs 3 and 4, and is not stated.) -/
def Obligations.RstGivesTheResetState : Prop :=
  ∀ s : State, s.nextTurn = .rst → ∃ t, step s = .next t ∧ t.cfg = s.cfg ∧
    t.table = (State.resetWith s.cfg).table ∧ t.cur = 0 ∧ t.iter = 0 ∧ t.instCount = 0 ∧ t.started = false ∧
    t.tmrOn = false ∧ t.ovie = false ∧ t.ovfPend = false ∧ (∀ p, t.pinMode p = .unset ∧ t.pinLevel p = .unset) ∧
    t.inFlight = none ∧ t.now = 0 ∧ t.trace = [] ∧ t.cmdWords = s.cmdWords

/-- R39 to R42: the values the spec gives for reset, the table for every instance, the rest for the default one (the
spec gives none for `CNT`, and none is stated). -/
def Obligations.ResetValues : Prop :=
  (∀ c : Config, (State.resetWith c).table.length = c.nCh + 1 ∧
    (State.resetWith c).table[0]? = some ⟨0, false, BitVec.ofNat 8 (syncBlocks c), c.syncRemainder⟩ ∧
    ∀ i, 1 ≤ i → i ≤ c.nCh → (State.resetWith c).table[i]? =
      some ⟨0, false, (enc c c.defaultPulseUs).1, (enc c c.defaultPulseUs).2⟩) ∧
  State.reset = State.resetWith Config.default ∧
  State.reset.table[0]? = some ⟨0, false, 52, 0⟩ ∧
  enc Config.default Config.default.defaultPulseUs = (11, 87) ∧
  State.reset.cur = 0 ∧ State.reset.iter = 0 ∧ State.reset.instCount = 0 ∧ State.reset.started = false ∧
  State.reset.tmrOn = false ∧ State.reset.ovie = false ∧ State.reset.ovfPend = false ∧
  (∀ p, State.reset.pinMode p = .unset ∧ State.reset.pinLevel p = .unset) ∧
  State.reset.inFlight = none ∧ State.reset.now = 0 ∧ State.reset.trace = []

/-! ### The pulse encoder -/

/-- R90 to R93, over the integers: the four steps for every instance, and at the default parameters with the ranges
the rules state. -/
def Obligations.EncoderFollowsItsFourSteps : Prop :=
  (∀ (c : Config) (w : Int), ConfigValid c →
    (clampUs c w : Int) = (if w < c.minPulseUs then (c.minPulseUs : Int)
      else if (c.maxPulseUs : Int) < w then c.maxPulseUs else w) ∧
    (adjustedUs c w : Int) = (clampUs c w : Int) - c.overheadUs ∧
    (enc c w).1.toNat = adjustedUs c w / c.blockUs ∧
    ((enc c w).2.toNat : Int) = 255 - c.ticksPerUs * (adjustedUs c w % c.blockUs : Nat)) ∧
  ∀ w : Int,
    (clampUs Config.default w : Int) = (if w < 500 then 500 else if 2000 < w then 2000 else w) ∧
    (adjustedUs Config.default w : Int) = (clampUs Config.default w : Int) - 8 ∧
    492 ≤ adjustedUs Config.default w ∧ adjustedUs Config.default w ≤ 1992 ∧
    (enc Config.default w).1.toNat = adjustedUs Config.default w / 128 ∧
    3 ≤ (enc Config.default w).1.toNat ∧ (enc Config.default w).1.toNat ≤ 15 ∧
    (enc Config.default w).2.toNat = 255 - 2 * (adjustedUs Config.default w % 128) ∧
    (enc Config.default w).2.toNat % 2 = 1 ∧
    1 ≤ (enc Config.default w).2.toNat ∧ (enc Config.default w).2.toNat ≤ 255

/-- R94: ENC is total over the clamp, recovers the adjusted width, and is injective on 500..2000; with R94's values. -/
def Obligations.EncoderProperties : Prop :=
  (∀ w : Int, enc Config.default w = enc Config.default (clampUs Config.default w) ∧
    3 ≤ (enc Config.default w).1.toNat ∧ (enc Config.default w).1.toNat ≤ 15 ∧
    (enc Config.default w).2.toNat % 2 = 1 ∧ 1 ≤ (enc Config.default w).2.toNat ∧
    (enc Config.default w).2.toNat ≤ 255 ∧
    (128 * (enc Config.default w).1.toNat + (255 - (enc Config.default w).2.toNat) / 2 : Int) =
      (clampUs Config.default w : Int) - 8) ∧
  (∀ v w : Int, 500 ≤ v → v ≤ 2000 → 500 ≤ w → w ≤ 2000 → enc Config.default v = enc Config.default w → v = w) ∧
  enc Config.default 500 = (3, 39) ∧ enc Config.default 1500 = (11, 87) ∧ enc Config.default 2000 = (15, 111) ∧
  enc Config.default 520 = (4, 255) ∧ enc Config.default 519 = (3, 1)

/-- R95: DEC's formula for every pair, with its range. -/
def Obligations.DecoderFormula : Prop :=
  ∀ b r : Byte, dec Config.default b r = 128 * b.toNat + (255 - r.toNat) / 2 + 8 ∧
    8 ≤ dec Config.default b r ∧ dec Config.default b r ≤ 32775

/-- R96, for every instance and not the default alone: DEC undoes ENC up to the clamp, exactly. -/
def Obligations.ReadBackIsExact : Prop :=
  ∀ (c : Config) (w : Int), ConfigValid c →
    dec c (enc c w).1 (enc c w).2 = clampUs c w ∧
    ((c.minPulseUs : Int) ≤ w → w ≤ c.maxPulseUs → (dec c (enc c w).1 (enc c w).2 : Int) = w)

/-- R100: the 16-bit datapath of slices and a complement computes ENC of every adjusted width. -/
def Obligations.DatapathComputesEnc : Prop :=
  ∀ w : Int, enc Config.default w = encDatapath (BitVec.ofNat 16 (adjustedUs Config.default w))

/-- R99 and D8: the sync slot's size, and exactly the frame periods that give 52 blocks. -/
def Obligations.SyncSlotSizing : Prop :=
  (∀ c : Config, syncBlocks c = (c.framePeriodUs - c.nCh * c.defaultPulseUs) / c.blockUs) ∧
  syncBlocks Config.default = 52 ∧
  ∀ f : Nat, syncBlocks { Config.default with framePeriodUs := f } = 52 ↔ 12656 ≤ f ∧ f ≤ 12783

/-! ### The commands -/

/-- R140: the next free index, or 0 when none is left; nothing else changes. -/
def Obligations.ConstructGivesTheNextIndex : Prop :=
  ∀ s : State, ConfigValid s.cfg → s.inFlight = none →
    (s.instCount.toNat < s.cfg.nCh →
      exec .construct s = .next (State.respond { s with instCount := s.instCount + 1 }
        (BitVec.ofNat 16 (s.instCount.toNat + 1))) ∧ (s.instCount + 1).toNat = s.instCount.toNat + 1) ∧
    (s.cfg.nCh ≤ s.instCount.toNat → exec .construct s = .next (s.respond 0))

/-- R97 in the order of the rule: `tickBlocks` in the first micro-step, `remainder` in the second, in whatever state
each is taken (the handler may have run between); nothing for the inert handle. -/
def Obligations.WriteUsWritesBlocksThenRemainder : Prop :=
  (∀ (s : State) (width : Half), s.inFlight = none → exec (.writeUs 0 width) s = .next (s.respond 0)) ∧
  ∀ (s : State) (ch : BitVec 4) (width : Half) (sl : Slot), s.cfg.writeOrder = .byRule → chanOk s.cfg ch = true →
    ch ≠ 0 → s.table[ch.toNat]? = some sl →
    (s.inFlight = none → exec (.writeUs ch width) s = .next
      { s with table := s.table.set ch.toNat { sl with tickBlocks := (enc s.cfg width.toInt).1 },
               inFlight := some ⟨.writeUs ch width, 1, 0⟩ }) ∧
    (s.inFlight = some ⟨.writeUs ch width, 1, 0⟩ → exec (.writeUs ch width) s = .next (State.respond
      { s with table := s.table.set ch.toNat { sl with remainder := (enc s.cfg width.toInt).2 } } 0))

/-- R97, R53: in either order an uninterrupted WRITE_US leaves the pair `ENC(width)` in the slot and nothing else
changed, and answers 0. -/
def Obligations.WriteUsStoresTheEncodedPair : Prop :=
  ∀ (s : State) (ch : BitVec 4) (width : Half) (sl : Slot), chanOk s.cfg ch = true → ch ≠ 0 → s.inFlight = none →
    s.table[ch.toNat]? = some sl →
    execTimes 2 (.writeUs ch width) s = .next (State.respond
      { s with table := s.table.set ch.toNat
                 { sl with tickBlocks := (enc s.cfg width.toInt).1, remainder := (enc s.cfg width.toInt).2 } } 0)

/-- R98: `tickBlocks` is read in the first micro-step, `remainder` in the second, whatever state `u` that one is
taken in, and the answer is DEC of the two; nothing is written; the inert handle answers 0. -/
def Obligations.ReadUsAnswersDec : Prop :=
  (∀ s : State, s.inFlight = none → exec (.readUs 0) s = .next (s.respond 0)) ∧
  ∀ (s : State) (ch : BitVec 4) (sl : Slot), chanOk s.cfg ch = true → ch ≠ 0 → s.inFlight = none →
    s.table[ch.toNat]? = some sl →
    ∃ f : InFlight, exec (.readUs ch) s = .next { s with inFlight := some f } ∧
      ∀ (u : State) (sl' : Slot), u.inFlight = some f → u.cfg = s.cfg → u.table[ch.toNat]? = some sl' →
        exec (.readUs ch) u = .next (u.respond (BitVec.ofNat 16 (dec s.cfg sl.tickBlocks sl'.remainder)))

/-- R96, R98: READ_US after a completed WRITE_US answers the clamped width. -/
def Obligations.ReadUsAfterWriteUs : Prop :=
  ∀ (s : State) (ch : BitVec 4) (width : Half) (sl : Slot), ConfigValid s.cfg → chanOk s.cfg ch = true → ch ≠ 0 →
    s.inFlight = none → s.table[ch.toNat]? = some sl →
    ∃ t u, execTimes 2 (.writeUs ch width) s = .next t ∧ execTimes 2 (.readUs ch) t = .next u ∧
      u.rsp = some (responseWord (BitVec.ofNat 16 (clampUs s.cfg width.toInt))) ∧
      (BitVec.ofNat 16 (clampUs s.cfg width.toInt)).toNat = clampUs s.cfg width.toInt

/-- R144: DETACH clears `pin.active` of its slot and nothing else; nothing for the inert handle; it answers 0. -/
def Obligations.DetachClearsActive : Prop :=
  (∀ s : State, s.inFlight = none → exec (.detach 0) s = .next (s.respond 0)) ∧
  ∀ (s : State) (ch : BitVec 4) (sl : Slot), chanOk s.cfg ch = true → ch ≠ 0 → s.inFlight = none →
    s.table[ch.toNat]? = some sl →
    exec (.detach ch) s = .next (State.respond
      { s with table := s.table.set ch.toNat { sl with pinActive := false } } 0)

/-- R145: ATTACHED answers the slot's active flag, 0 for the inert handle, and writes nothing. -/
def Obligations.AttachedAnswersActive : Prop :=
  (∀ s : State, s.inFlight = none → exec (.attached 0) s = .next (s.respond 0)) ∧
  ∀ (s : State) (ch : BitVec 4) (sl : Slot), chanOk s.cfg ch = true → ch ≠ 0 → s.inFlight = none →
    s.table[ch.toNat]? = some sl →
    exec (.attached ch) s = .next (s.respond (if sl.pinActive then 1 else 0))

/-- R142: the first ATTACH, whatever its handle, takes ACTIVATE's four micro-steps in order, each in whatever state
it is taken; the inert handle's ATTACH ends with the fourth. -/
def Obligations.AttachActivatesFirst : Prop :=
  ∀ (s : State) (ch : BitVec 4) (pin : BitVec 7) (v : Half), chanOk s.cfg ch = true → pinOk s.cfg pin = true →
    (s.inFlight = none → s.started = false → exec (.attach ch pin) s = .next
      { s with tmrOn := true, reqs := s.reqs ++ [.tmr .config],
               inFlight := some ⟨.attach ch pin, 1, ch.setWidth 16⟩ }) ∧
    (s.inFlight = some ⟨.attach ch pin, 1, v⟩ → exec (.attach ch pin) s = .next
      { s with cnt := 0, reqs := s.reqs ++ [.tmr (.load 0)], inFlight := some ⟨.attach ch pin, 2, v⟩ }) ∧
    (s.inFlight = some ⟨.attach ch pin, 2, v⟩ → exec (.attach ch pin) s = .next
      { s with ovie := true, ovfPend := false, reqs := s.reqs ++ [.tmr .ovfEnable],
               inFlight := some ⟨.attach ch pin, 3, v⟩ }) ∧
    (s.inFlight = some ⟨.attach ch pin, 3, v⟩ → exec (.attach ch pin) s = .next
      (if ch = 0 then State.respond { s with started := true } v
       else { s with started := true, inFlight := some ⟨.attach ch pin, 4, v⟩ }))

/-- R141 step 2 in the order of the rule: the pin made an output, `pin.id`, `pin.active`, then the answer; a later
ATTACH begins there. -/
def Obligations.AttachBindsThePin : Prop :=
  ∀ (s : State) (ch : BitVec 4) (pin : BitVec 7) (v : Half) (sl : Slot), s.cfg.writeOrder = .byRule →
    chanOk s.cfg ch = true → pinOk s.cfg pin = true → ch ≠ 0 → s.table[ch.toNat]? = some sl →
    (s.inFlight = none → s.started = true → exec (.attach ch pin) s = .next
      { s.pinModeOutput pin with inFlight := some ⟨.attach ch pin, 5, ch.setWidth 16⟩ }) ∧
    (s.inFlight = some ⟨.attach ch pin, 4, v⟩ → exec (.attach ch pin) s = .next
      { s.pinModeOutput pin with inFlight := some ⟨.attach ch pin, 5, v⟩ }) ∧
    (s.inFlight = some ⟨.attach ch pin, 5, v⟩ → exec (.attach ch pin) s = .next
      { s with table := s.table.set ch.toNat { sl with pinId := pin }, inFlight := some ⟨.attach ch pin, 6, v⟩ }) ∧
    (s.inFlight = some ⟨.attach ch pin, 6, v⟩ → exec (.attach ch pin) s = .next (State.respond
      { s with table := s.table.set ch.toNat { sl with pinActive := true } } v))

/-- R141, R142, in either order of the two pin fields: what a whole ATTACH leaves, and its answer, for each of its
four forms. -/
def Obligations.AttachCompletes : Prop :=
  ∀ (s : State) (ch : BitVec 4) (pin : BitVec 7), chanOk s.cfg ch = true → pinOk s.cfg pin = true →
    s.inFlight = none →
    (s.started = true → ch = 0 → exec (.attach ch pin) s = .next (s.respond 0)) ∧
    (s.started = false → ch = 0 → execTimes 4 (.attach ch pin) s = .next (State.respond
      { s with tmrOn := true, cnt := 0, ovie := true, ovfPend := false, started := true,
               reqs := s.reqs ++ [.tmr .config, .tmr (.load 0), .tmr .ovfEnable] } 0)) ∧
    (∀ sl : Slot, s.started = true → ch ≠ 0 → s.table[ch.toNat]? = some sl →
      execTimes 3 (.attach ch pin) s = .next (State.respond
        { s.pinModeOutput pin with
            table := s.table.set ch.toNat { sl with pinId := pin, pinActive := true } } (ch.setWidth 16))) ∧
    (∀ sl : Slot, s.started = false → ch ≠ 0 → s.table[ch.toNat]? = some sl →
      execTimes 7 (.attach ch pin) s = .next (State.respond
        { s.pinModeOutput pin with
            table := s.table.set ch.toNat { sl with pinId := pin, pinActive := true },
            tmrOn := true, cnt := 0, ovie := true, ovfPend := false, started := true,
            reqs := s.reqs ++ [.tmr .config, .tmr (.load 0), .tmr .ovfEnable, .pin (.modeOutput pin)] }
        (ch.setWidth 16)))

/-- R143: the inert handle. No slot, pin or register of the scheduler changes but for the activation by a first
ATTACH. -/
def Obligations.InertHandle : Prop :=
  ∀ s : State, s.inFlight = none →
    (∀ width, exec (.writeUs 0 width) s = .next (s.respond 0)) ∧
    exec (.detach 0) s = .next (s.respond 0) ∧
    exec (.readUs 0) s = .next (s.respond 0) ∧
    exec (.attached 0) s = .next (s.respond 0) ∧
    ∀ pin, pinOk s.cfg pin = true →
      (s.started = true → exec (.attach 0 pin) s = .next (s.respond 0)) ∧
      (s.started = false → ∃ t, execTimes 4 (.attach 0 pin) s = .next t ∧ t.started = true ∧ t.tmrOn = true ∧
        t.ovie = true ∧ t.table = s.table ∧ t.pins = s.pins ∧ t.trace = s.trace ∧ t.cur = s.cur ∧
        t.iter = s.iter ∧ t.instCount = s.instCount ∧ t.rsp = some (responseWord 0) ∧ t.inFlight = none)

/-- R74: a command's micro-step puts exactly one response on the port if it ends the command, and none if the
command stays in flight. -/
def Obligations.OneResponsePerCommand : Prop :=
  ∀ (i : Instr) (s t : State), i.isCommand = true → exec i s = .next t →
    (t.inFlight ≠ none ∧ t.rsp = s.rsp ∧ t.responses = s.responses) ∨
    (t.inFlight = none ∧ ∃ w, t.rsp = some w ∧ t.responses = s.responses ++ [w])

/-- R146: no command but CONSTRUCT depends on `instCount`. -/
def Obligations.ChanIsNotCheckedAgainstInstCount : Prop :=
  ∀ (i : Instr) (s t : State) (n : BitVec 3), i.isCommand = true → i ≠ .construct → exec i s = .next t →
    exec i { s with instCount := n } = .next { t with instCount := n }

/-- MODEL'S CHOICE (log 8) where the host breaks R74's and R189 a's obligation: a command issued while another one is
in flight is refused by name. -/
def Obligations.SecondCommandIsRefused : Prop :=
  ∀ (i : Instr) (s : State) (f : InFlight), i.isCommand = true → s.inFlight = some f → f.cmd ≠ i →
    exec i s = .refused .commandsOverlap

/-- R75 read for terms (log 16): a command whose operands only a reserved word could carry answers ILL and changes
nothing. -/
def Obligations.IllFormedCommandsAnswerIll : Prop :=
  ∀ (i : Instr) (s : State), i.wellFormed s.cfg = false → s.inFlight = none →
    exec i s = .next { s with rsp := some 0x80000000, responses := s.responses ++ [0x80000000] }

/-! ### The timer and the handler -/

/-- R118: one count, and the exact number of counts from any loaded value to the overflow. -/
def Obligations.TickCounts : Prop :=
  (∀ s : State, s.ovfPend = false →
    exec .tick s = .next
      (if s.tmrOn then
        if s.cnt = 255 then { s with now := s.now + 1, cnt := 0, ovfPend := s.ovie }
        else { s with now := s.now + 1, cnt := s.cnt + 1 }
      else { s with now := s.now + 1 })) ∧
  ∀ s : State, s.ovfPend = false → s.tmrOn = true → s.ovie = true →
    (∀ n, n < 256 - s.cnt.toNat →
      execTimes n .tick s = .next { s with now := s.now + n, cnt := BitVec.ofNat 8 (s.cnt.toNat + n) }) ∧
    execTimes (256 - s.cnt.toNat) .tick s =
      .next { s with now := s.now + (256 - s.cnt.toNat), cnt := 0, ovfPend := true }

/-- MODEL'S CHOICE (log 9) for a TICK asked for while R118 does not enable it: it waits, and nothing changes. -/
def Obligations.TickWaitsWhilePending : Prop :=
  ∀ s : State, s.ovfPend = true → exec .tick s = .next s

/-- R110 with R111: the handler's four cases, each with the whole next state. -/
def Obligations.HandlerSteps : Prop :=
  ∀ (s : State) (old : Slot), s.cfg.nCh ≤ 6 → s.cur.toNat ≤ s.cfg.nCh → s.slot s.cur.toNat = .ok old →
    (s.iter + 1 = old.tickBlocks → exec .ovf s = .next
      { s with ovfPend := false, iter := s.iter + 1, cnt := old.remainder,
               reqs := s.reqs ++ [.tmr (.load old.remainder)] }) ∧
    (s.iter + 1 < old.tickBlocks → exec .ovf s = .next { s with ovfPend := false, iter := s.iter + 1 }) ∧
    (old.tickBlocks < s.iter + 1 →
      let low : State := if old.pinActive then s.pinWrite old.pinId .low else s
      let ended : State := { low with ovfPend := false, iter := 0, cnt := 0, reqs := low.reqs ++ [.tmr (.load 0)] }
      (s.cur.toNat = s.cfg.nCh → exec .ovf s = .next { ended with cur := 0 }) ∧
      (∀ new, s.cur.toNat < s.cfg.nCh → s.slot (s.cur.toNat + 1) = .ok new →
        exec .ovf s = .next
          (let moved : State := { ended with cur := BitVec.ofNat 3 (s.cur.toNat + 1) }
           if new.pinActive then moved.pinWrite new.pinId .high else moved)))

/-- R169: a handler run does not read `started`. That it is the same with no overflow pending is the model's reading
(log 10, DEDUCED: R163 enables the handler exactly when `OVF_PEND` = 1). -/
def Obligations.HandlerIgnoresStarted : Prop :=
  ∀ (s t : State) (b p : Bool), exec .ovf s = .next t →
    exec .ovf { s with started := b, ovfPend := p } = .next { t with started := b }

/-- R51, MODEL'S CHOICE of the stop's name (log 11): a handler run or an ATTACHED that reaches a slot that does not
exist faults. -/
def Obligations.MissingSlotsFault : Prop :=
  (∀ s : State, s.table[s.cur.toNat]? = none → exec .ovf s = .fault (.noSuchSlot s.cur.toNat)) ∧
  ∀ (s : State) (ch : BitVec 4), chanOk s.cfg ch = true → ch ≠ 0 → s.inFlight = none →
    s.table[ch.toNat]? = none → exec (.attached ch) s = .fault (.noSuchSlot ch.toNat)

/-! ### Frames -/

/-- R34, R54, R117, R118, R163: what a handler run and a TICK leave unchanged; in a handler run a pin's level changes
only for the pin of an active slot, the one that ends or the one that begins. -/
def Obligations.EventsFrame : Prop :=
  ∀ s t : State,
    (exec .tick s = .next t → t = { s with now := t.now, cnt := t.cnt, ovfPend := t.ovfPend }) ∧
    (exec .ovf s = .next t →
      t = { s with cur := t.cur, iter := t.iter, cnt := t.cnt, ovfPend := false, pins := t.pins, trace := t.trace,
                   reqs := t.reqs } ∧
      (∀ p, t.pinMode p = s.pinMode p) ∧
      ∀ p, t.pinLevel p ≠ s.pinLevel p → ∃ i sl, (i = s.cur.toNat ∨ i = t.cur.toNat) ∧ s.slot i = .ok sl ∧
        sl.pinActive = true ∧ sl.pinId = p)

/-- R56, R98, R145: ATTACHED and READ_US change the host's side of the machine only; CONSTRUCT also `instCount`. -/
def Obligations.ReadingCommandsFrame : Prop :=
  ∀ (s t : State) (ch : BitVec 4),
    (exec (.attached ch) s = .next t ∨ exec (.readUs ch) s = .next t →
      t = { s with rsp := t.rsp, responses := t.responses, inFlight := t.inFlight }) ∧
    (exec .construct s = .next t →
      t = { s with instCount := t.instCount, rsp := t.rsp, responses := t.responses, inFlight := t.inFlight })

/-- R97, R144: WRITE_US and DETACH change the table and the host's side only; of the table one slot, of the slot the
fields the rule names. -/
def Obligations.WritingCommandsFrame : Prop :=
  ∀ (s t : State) (ch : BitVec 4) (width : Half),
    (exec (.writeUs ch width) s = .next t ∨ exec (.detach ch) s = .next t →
      t = { s with table := t.table, rsp := t.rsp, responses := t.responses, inFlight := t.inFlight } ∧
      t.table.length = s.table.length ∧ ∀ i, i ≠ ch.toNat ∨ i = 0 → t.table[i]? = s.table[i]?) ∧
    (exec (.writeUs ch width) s = .next t → ∀ (i : Nat) (sl sl' : Slot), s.table[i]? = some sl → t.table[i]? = some sl' →
      sl'.pinId = sl.pinId ∧ sl'.pinActive = sl.pinActive) ∧
    (exec (.detach ch) s = .next t → ∀ (i : Nat) (sl sl' : Slot), s.table[i]? = some sl → t.table[i]? = some sl' →
      sl'.pinId = sl.pinId ∧ sl'.tickBlocks = sl.tickBlocks ∧ sl'.remainder = sl.remainder)

/-- R141, R142: ATTACH changes neither the sequencer, `instCount`, time nor any pin's level; of the table the pin
fields of one slot; of the modes its own pin's. -/
def Obligations.AttachFrame : Prop :=
  ∀ (s t : State) (ch : BitVec 4) (pin : BitVec 7), exec (.attach ch pin) s = .next t →
    t = { s with table := t.table, started := t.started, cnt := t.cnt, tmrOn := t.tmrOn, ovie := t.ovie,
                 ovfPend := t.ovfPend, pins := t.pins, trace := t.trace, reqs := t.reqs, rsp := t.rsp,
                 responses := t.responses, inFlight := t.inFlight } ∧
    t.table.length = s.table.length ∧ (∀ i, i ≠ ch.toNat ∨ i = 0 → t.table[i]? = s.table[i]?) ∧
    (∀ (i : Nat) (sl sl' : Slot), s.table[i]? = some sl → t.table[i]? = some sl' →
      sl'.tickBlocks = sl.tickBlocks ∧ sl'.remainder = sl.remainder) ∧
    (∀ p, t.pinLevel p = s.pinLevel p) ∧ ∀ p, p ≠ pin → t.pinMode p = s.pinMode p

/-! ### Whole-machine rules -/

/-- R10, R20, R22, R26, R31, R113, R115, R142: the invariant, and the two of an in-flight command, hold after
reset. -/
def Obligations.ResetMeetsTheInvariants : Prop :=
  Inv State.reset ∧ InFlightOk State.reset ∧ PinsMadeOutput State.reset

/-- The invariant is kept by every step, from every state that meets it. -/
def Obligations.StepKeepsTheInvariant : Prop :=
  ∀ s t : State, Inv s → step s = .next t → Inv t

/-- R37: what is in flight is always a command with legal operands. -/
def Obligations.StepKeepsACommandInFlight : Prop :=
  ∀ s t : State, InFlightOk s → step s = .next t → InFlightOk t

/-- R141, R171, proved for every command sequence in the rules' order: an active slot's pin has been made an
output, so every PinWrite goes to one. -/
def Obligations.StepKeepsPinsMadeOutput : Prop :=
  ∀ s t : State, PinsMadeOutput s → step s = .next t → PinsMadeOutput t

/-- R160: from every state that meets the invariant there is a next step. -/
def Obligations.NoStateIsStuck : Prop :=
  ∀ s : State, Inv s → ∃ t, step s = .next t

/-- R74, R189 a: the step never issues a second command, so nothing it does is refused, in any state. -/
def Obligations.StepNeverRefuses : Prop :=
  ∀ (s : State) (r : Refusal), step s ≠ .refused r

/-- R62: no step but a reset writes slot 0. -/
def Obligations.SlotZeroIsNeverWritten : Prop :=
  ∀ s t : State, step s = .next t → s.nextTurn ≠ .rst → t.table[0]? = s.table[0]?

/-- R31, R32, R43, R162, R188: without `rst` the instance counter never falls, and the started flag, the timer and
its interrupt enable are never cleared. -/
def Obligations.NothingIsTornDown : Prop :=
  ∀ s t : State, Inv s → step s = .next t → s.nextTurn ≠ .rst →
    s.instCount.toNat ≤ t.instCount.toNat ∧ (s.started = true → t.started = true) ∧
    (s.tmrOn = true → t.tmrOn = true) ∧ (s.ovie = true → t.ovie = true)

/-- MODEL'S CHOICE of where the parameters stand (log 1): no step, a reset included, changes them. -/
def Obligations.ParametersNeverChange : Prop :=
  ∀ s t : State, step s = .next t → t.cfg = s.cfg

/-- R113, R114: the cursor moves only in a handler run, and then to the next slot of the rotation. -/
def Obligations.CursorRotates : Prop :=
  ∀ s t : State, InFlightOk s → s.cfg.nCh ≤ 6 → s.cur.toNat ≤ s.cfg.nCh → step s = .next t → s.nextTurn ≠ .rst →
    t.cur.toNat ≤ t.cfg.nCh ∧
    (t.cur = s.cur ∨ (s.ovfPend = true ∧ t.cur.toNat = nextSlot s.cfg s.cur.toNat))

/-- R21, R117, R171: without `rst` a pin's level changes only in a handler run, and only for an active slot's pin. -/
def Obligations.OnlyTheHandlerDrivesPins : Prop :=
  ∀ (s t : State) (p : BitVec 7), InFlightOk s → step s = .next t → s.nextTurn ≠ .rst → t.pinLevel p ≠ s.pinLevel p →
    s.ovfPend = true ∧ ∃ i sl, s.slot i = .ok sl ∧ sl.pinActive = true ∧ sl.pinId = p

/-- R38, R77, R203: the trace grows by exactly the pin requests of the step, each with the `now` of its issue. (That
`reqs` holds those of one step alone is the model's port, log 20.) -/
def Obligations.TraceRecordsThePinRequests : Prop :=
  ∀ s t : State, step s = .next t → s.nextTurn ≠ .rst →
    t.trace = s.trace ++ (pinRequests t.reqs).map fun r => (s.now, r)

/-! ### Durations in the reference timing, while the host takes no micro-step -/

/-- From R119 and R116, in the reference timing and while the host takes no micro-step (R119 asks only that the slot's
fields stay): a slot lasts exactly `T(B, R)` ticks, then the next slot begins. -/
def Obligations.SlotDuration : Prop :=
  ∀ (s : State) (sl : Slot), SlotBegins s → s.cfg.nCh ≤ 6 → s.table.length = s.cfg.nCh + 1 →
    s.table[s.cur.toNat]? = some sl → sl.tickBlocks.toNat ≤ 254 →
    (∀ n, n < slotTicks sl.tickBlocks sl.remainder →
      ∃ u, refTicks n s = .next u ∧ u.cur = s.cur ∧ u.now = s.now + n ∧ u.pins = s.pins ∧ u.trace = s.trace) ∧
    ∃ t, refTicks (slotTicks sl.tickBlocks sl.remainder) s = .next t ∧ SlotBegins t ∧
      t.cur.toNat = nextSlot s.cfg s.cur.toNat ∧ t.now = s.now + slotTicks sl.tickBlocks sl.remainder ∧
      t.table = s.table ∧ t.cfg = s.cfg

/-- R120, in the reference timing and while the host takes no micro-step: an active channel's pin is high for exactly
`2 a + 1` ticks of its slot, `a` the adjusted width. -/
def Obligations.PulseWidthOnThePin : Prop :=
  ∀ (s : State) (sl : Slot) (w : Int), SlotBegins s → s.cfg = Config.default → s.table.length = 5 →
    1 ≤ s.cur.toNat → s.table[s.cur.toNat]? = some sl → sl.pinActive = true →
    (sl.tickBlocks, sl.remainder) = enc Config.default w → s.pinLevel sl.pinId = .driven .high →
    (∀ n, n < 2 * adjustedUs Config.default w + 1 →
      ∃ u, refTicks n s = .next u ∧ u.pinLevel sl.pinId = .driven .high) ∧
    ∃ t, refTicks (2 * adjustedUs Config.default w + 1) s = .next t ∧
      t.cur.toNat = nextSlot s.cfg s.cur.toNat ∧
      ((∀ new, s.slot t.cur.toNat = .ok new → new.pinActive = true → new.pinId ≠ sl.pinId) →
        t.pinLevel sl.pinId = .driven .low)

/-- R121, in the reference timing and while the host takes no micro-step: a frame lasts exactly the sum of its slots,
whichever channels are attached: slot 0 begins again then and not before; 25508 ticks at the reset values. -/
def Obligations.FrameDuration : Prop :=
  frameTicks State.reset.table = 25508 ∧
  ∀ s : State, SlotBegins s → s.cfg.nCh ≤ 6 → s.table.length = s.cfg.nCh + 1 → s.cur = 0 →
    (∀ sl ∈ s.table, sl.tickBlocks.toNat ≤ 254) →
    (∀ n, 0 < n → n < frameTicks s.table → ∃ u, refTicks n s = .next u ∧ ¬ (SlotBegins u ∧ u.cur = 0)) ∧
    ∃ t, refTicks (frameTicks s.table) s = .next t ∧ SlotBegins t ∧ t.cur = 0 ∧ t.table = s.table ∧
      t.now = s.now + frameTicks s.table

/-- R122, in the reference timing: the first ATTACH begins the sync slot; with no further micro-step the first handler
run comes 256 ticks later. -/
def Obligations.FirstFrame : Prop :=
  ∀ (s : State) (ch : BitVec 4) (pin : BitVec 7), Inv s → chanOk s.cfg ch = true → pinOk s.cfg pin = true →
    s.inFlight = none → s.started = false → s.cur = 0 → s.iter = 0 →
    ∃ t, execTimes 4 (.attach ch pin) s = .next t ∧ SlotBegins t ∧ t.cur = 0 ∧ t.now = s.now ∧
      t.table = s.table ∧
      (∀ n, n < 256 → ∃ u, refTicks n t = .next u ∧ u.iter = 0 ∧ u.reqs = t.reqs) ∧
      ∃ u, refTicks 256 t = .next u ∧ u.iter = 1

/-- R115, R202: once the timer runs, and while the host takes no micro-step, the slot under way ends within 65536 ticks,
from every state that meets `Inv`. -/
def Obligations.RotationNeverStalls : Prop :=
  ∀ s : State, Inv s → s.tmrOn = true → s.ovie = true → s.ovfPend = false →
    ∃ n t, 1 ≤ n ∧ n ≤ 65536 ∧ refTicks n s = .next t ∧ t.cur ≠ s.cur

/-! ### Hazards -/

/-- R191: between its two micro-steps a WRITE_US leaves `(B_new, R_old)`, and a slot timed with that pair is off by
`R_new - R_old` ticks, at most 254 either way. -/
def Obligations.TornWriteUs : Prop :=
  ∀ (s : State) (ch : BitVec 4) (width : Half) (sl : Slot) (w : Int), s.cfg = Config.default →
    chanOk s.cfg ch = true → ch ≠ 0 → s.inFlight = none → s.table[ch.toNat]? = some sl →
    sl.remainder = (enc Config.default w).2 →
    ∃ t torn, exec (.writeUs ch width) s = .next t ∧ t.table[ch.toNat]? = some torn ∧
      torn.tickBlocks = (enc Config.default width.toInt).1 ∧ torn.remainder = sl.remainder ∧
      (slotTicks torn.tickBlocks torn.remainder : Int) =
        slotTicks (enc Config.default width.toInt).1 (enc Config.default width.toInt).2 +
          ((enc Config.default width.toInt).2.toNat - sl.remainder.toNat) ∧
      -254 ≤ ((enc Config.default width.toInt).2.toNat : Int) - sl.remainder.toNat ∧
      ((enc Config.default width.toInt).2.toNat : Int) - sl.remainder.toNat ≤ 254

/-- R193: a DETACH in the middle of a pulse leaves the pin high past the end of the slot, whatever the slot that begins
drives: no low is issued, only that slot's own high where it is active. -/
def Obligations.DetachMidPulseLeavesThePinHigh : Prop :=
  ∀ (s : State) (ch : BitVec 4) (sl : Slot), ConfigValid s.cfg → chanOk s.cfg ch = true → ch ≠ 0 →
    s.inFlight = none → s.table.length = s.cfg.nCh + 1 → s.table[ch.toNat]? = some sl → s.cur.toNat = ch.toNat →
    s.pinLevel sl.pinId = .driven .high → sl.tickBlocks < s.iter + 1 →
    ∃ t u new, exec (.detach ch) s = .next t ∧ exec .ovf t = .next u ∧ u.cur.toNat = nextSlot s.cfg ch.toNat ∧
      u.pinLevel sl.pinId = .driven .high ∧ s.slot (nextSlot s.cfg ch.toNat) = .ok new ∧
      u.trace = s.trace ++ if new.pinActive then [(s.now, .write new.pinId .high)] else []

/-- R192: a width written into the slot under way whose blocks have already passed ends the slot at the very next
handler run, and no remainder is loaded. -/
def Obligations.ShorterWidthEndsTheSlotAtOnce : Prop :=
  ∀ (s : State) (sl : Slot), Inv s → s.table[s.cur.toNat]? = some sl → sl.tickBlocks ≤ s.iter →
    ∃ t, exec .ovf s = .next t ∧ t.cur.toNat = nextSlot s.cfg s.cur.toNat ∧ t.iter = 0 ∧ t.cnt = 0 ∧
      ∀ v : Byte, Request.tmr (.load v) ∈ t.reqs → Request.tmr (.load v) ∈ s.reqs ∨ v = 0
end

