-- ==== Sys2Proof/Laws/Decode.lean ====
section
/-! SUPPORT. The fields of a word put together from fields (spec/30_encoding.md R71). -/

namespace Sys2Proof

/-- The bits of a command word, field by field. -/
theorem commandWord_bit (o ch : BitVec 4) (x : Half) (i : Nat) :
    (commandWord o ch x).getLsbD i =
      if i < 16 then x.getLsbD i else if i < 24 then false else if i < 28 then ch.getLsbD (i - 24) else o.getLsbD (i - 28) := by
  unfold commandWord
  simp only [BitVec.getLsbD_append]
  repeat' split
  all_goals first | rfl | omega | simp

@[simp] theorem opcodeField_commandWord (o ch : BitVec 4) (x : Half) : opcodeField (commandWord o ch x) = o := by
  apply BitVec.eq_of_getLsbD_eq
  intro i hi
  simp only [opcodeField, BitVec.getLsbD_extractLsb', commandWord_bit, hi]
  rw [if_neg (by omega), if_neg (by omega), if_neg (by omega)]
  simp

@[simp] theorem chanField_commandWord (o ch : BitVec 4) (x : Half) : chanField (commandWord o ch x) = ch := by
  apply BitVec.eq_of_getLsbD_eq
  intro i hi
  simp only [chanField, BitVec.getLsbD_extractLsb', commandWord_bit, hi]
  rw [if_neg (by omega), if_neg (by omega), if_pos (by omega)]
  simp

@[simp] theorem zeroField_commandWord (o ch : BitVec 4) (x : Half) : zeroField (commandWord o ch x) = 0 := by
  apply BitVec.eq_of_getLsbD_eq
  intro i hi
  simp only [zeroField, BitVec.getLsbD_extractLsb', commandWord_bit, hi]
  rw [if_neg (by omega), if_pos (by omega)]
  simp

@[simp] theorem operandField_commandWord (o ch : BitVec 4) (x : Half) : operandField (commandWord o ch x) = x := by
  apply BitVec.eq_of_getLsbD_eq
  intro i hi
  simp only [operandField, BitVec.getLsbD_extractLsb', commandWord_bit, hi]
  rw [if_pos (by omega)]
  simp

/-- A word whose zero field is 0 is its other three fields. -/
theorem commandWord_of_fields (w : Word) (h : zeroField w = 0) :
    commandWord (opcodeField w) (chanField w) (operandField w) = w := by
  apply BitVec.eq_of_getLsbD_eq
  intro i hi
  simp only [commandWord_bit, opcodeField, chanField, operandField, BitVec.getLsbD_extractLsb']
  split
  next h1 => simp [h1]
  next h1 =>
    split
    next h2 =>
      have := congrArg (fun z : Byte => z.getLsbD (i - 16)) h
      simp only [zeroField, BitVec.getLsbD_extractLsb'] at this
      rw [show 16 + (i - 16) = i by omega] at this
      simpa [show i - 16 < 8 by omega] using this.symm
    next h2 =>
      split
      next h3 => rw [show 24 + (i - 24) = i by omega]; simp [show i - 24 < 4 by omega]
      next h3 => rw [show 28 + (i - 28) = i by omega]; simp [show i - 28 < 4 by omega]

end Sys2Proof
end

