-- ==== Sys2Proof/Laws/PinMap.lean ====
section
/-! SUPPORT. The laws of the pin map: read after write, the canonical form, equal readings are equal maps
(spec/60_exceptions.md R171: "Requests are idempotent"). -/

namespace Sys2Proof.Machine

@[simp] theorem PinMap.get_insert_same (p : Nat) (v : Pin) (m : PinMap) : PinMap.get (PinMap.insert p v m) p = v := by
  induction m with
  | nil => simp [PinMap.insert, PinMap.get]
  | cons e rest ih =>
    obtain ⟨q, u⟩ := e
    unfold PinMap.insert
    split
    · simp [PinMap.get]
    · split
      · simp [PinMap.get]
      · simp [PinMap.get, *]

theorem PinMap.get_insert_other {p q : Nat} (h : q ≠ p) (v : Pin) (m : PinMap) :
    PinMap.get (PinMap.insert p v m) q = PinMap.get m q := by
  induction m with
  | nil => simp [PinMap.insert, PinMap.get, h]
  | cons e rest ih =>
    obtain ⟨r, u⟩ := e
    unfold PinMap.insert
    split
    · simp [PinMap.get, h]
    · split
      next heq => subst heq; simp [PinMap.get, h]
      next => simp only [PinMap.get, ih]

theorem PinMap.get_makeOutput (m : PinMap) (p q : Nat) :
    PinMap.get (PinMap.makeOutput m p) q = if q = p then { PinMap.get m p with mode := .output } else PinMap.get m q := by
  unfold PinMap.makeOutput
  split
  next h => subst h; simp
  next h => exact PinMap.get_insert_other h _ m

theorem PinMap.get_drive (m : PinMap) (p q : Nat) (l : Level) :
    PinMap.get (PinMap.drive m p l) q = if q = p then { PinMap.get m p with level := .driven l } else PinMap.get m q := by
  unfold PinMap.drive
  split
  next h => subst h; simp
  next h => exact PinMap.get_insert_other h _ m

/-- The bound that `wfAbove` carries admits `p`. -/
def PinMap.above : Option Nat → Nat → Prop
  | none, _ => True
  | some lo, p => lo < p

theorem PinMap.wfAbove_cons {lo : Option Nat} {q : Nat} {v : Pin} {rest : PinMap} :
    PinMap.wfAbove lo ((q, v) :: rest) = true ↔ PinMap.above lo q ∧ v ≠ {} ∧ PinMap.wfAbove (some q) rest = true := by
  cases lo <;> simp [PinMap.wfAbove, PinMap.above, and_assoc]

theorem PinMap.wfAbove_insert {v : Pin} (hv : v ≠ {}) (p : Nat) (m : PinMap) :
    ∀ lo, PinMap.above lo p → PinMap.wfAbove lo m = true → PinMap.wfAbove lo (PinMap.insert p v m) = true := by
  induction m with
  | nil =>
    intro lo hp _
    exact PinMap.wfAbove_cons.mpr ⟨hp, hv, by simp [PinMap.wfAbove]⟩
  | cons e rest ih =>
    obtain ⟨q, u⟩ := e
    intro lo hp h
    obtain ⟨hq, hu, hr⟩ := PinMap.wfAbove_cons.mp h
    unfold PinMap.insert
    split
    next hlt => exact PinMap.wfAbove_cons.mpr ⟨hp, hv, PinMap.wfAbove_cons.mpr ⟨hlt, hu, hr⟩⟩
    next hnl =>
      split
      next heq => subst heq; exact PinMap.wfAbove_cons.mpr ⟨hp, hv, hr⟩
      next hne => exact PinMap.wfAbove_cons.mpr ⟨hq, hu, ih _ (show q < p by omega) hr⟩

/-- `makeOutput` keeps the canonical form. -/
theorem PinMap.wf_makeOutput {m : PinMap} (h : PinMap.wf m = true) (p : Nat) :
    PinMap.wf (PinMap.makeOutput m p) = true :=
  PinMap.wfAbove_insert (by simp) p m none trivial h

/-- `drive` keeps the canonical form. -/
theorem PinMap.wf_drive {m : PinMap} (h : PinMap.wf m = true) (p : Nat) (l : Level) :
    PinMap.wf (PinMap.drive m p l) = true :=
  PinMap.wfAbove_insert (by simp) p m none trivial h

theorem PinMap.get_of_wfAbove_le {m : PinMap} : ∀ {lo p : Nat}, PinMap.wfAbove (some lo) m = true → p ≤ lo →
    PinMap.get m p = {} := by
  induction m with
  | nil => intro lo p _ _; rfl
  | cons e rest ih =>
    obtain ⟨q, u⟩ := e
    intro lo p h hp
    obtain ⟨hq, -, hr⟩ := PinMap.wfAbove_cons.mp h
    have hlt : lo < q := hq
    simp only [PinMap.get, if_neg (show p ≠ q by omega)]
    exact ih hr (by omega)

theorem PinMap.ext_above (m : PinMap) : ∀ (n : PinMap) (lo : Option Nat), PinMap.wfAbove lo m = true →
    PinMap.wfAbove lo n = true → (∀ p, PinMap.get m p = PinMap.get n p) → m = n := by
  induction m with
  | nil =>
    intro n lo _ hn hget
    cases n with
    | nil => rfl
    | cons e rest =>
      obtain ⟨q, u⟩ := e
      obtain ⟨-, hu, -⟩ := PinMap.wfAbove_cons.mp hn
      exact absurd (by simpa [PinMap.get] using (hget q).symm) hu
  | cons e rest ih =>
    obtain ⟨q, u⟩ := e
    intro n lo hm hn hget
    obtain ⟨-, hu, hr⟩ := PinMap.wfAbove_cons.mp hm
    cases n with
    | nil => exact absurd (by simpa [PinMap.get] using hget q) hu
    | cons e' rest' =>
      obtain ⟨q', u'⟩ := e'
      obtain ⟨-, hu', hr'⟩ := PinMap.wfAbove_cons.mp hn
      have hq : q = q' := by
        rcases Nat.lt_trichotomy q q' with h | h | h
        · have := hget q
          simp only [PinMap.get, if_true, if_neg (show q ≠ q' by omega)] at this
          exact absurd (this.trans (PinMap.get_of_wfAbove_le hr' (by omega))) hu
        · exact h
        · have := hget q'
          simp only [PinMap.get, if_true, if_neg (show q' ≠ q by omega)] at this
          exact absurd (this.symm.trans (PinMap.get_of_wfAbove_le hr (by omega))) hu'
      subst hq
      have hu : u = u' := by simpa [PinMap.get] using hget q
      subst hu
      have : rest = rest' := ih rest' (some q) hr hr' fun p => by
        by_cases hp : p ≤ q
        · rw [PinMap.get_of_wfAbove_le hr hp, PinMap.get_of_wfAbove_le hr' hp]
        · have h := hget p
          simpa only [PinMap.get, if_neg (show p ≠ q by omega)] using h
      rw [this]

/-- Canonical maps with equal readings are equal lists. -/
theorem PinMap.ext {m n : PinMap} (hm : PinMap.wf m = true) (hn : PinMap.wf n = true)
    (h : ∀ p, PinMap.get m p = PinMap.get n p) : m = n :=
  PinMap.ext_above m n none hm hn h

end Sys2Proof.Machine
end

