-- ==== Sys2Proof/Laws/State.lean ====
section
/-! SUPPORT. One lemma per field per update of State, all by rfl. -/

namespace Sys2Proof.Machine

section setStarted_fields
variable (s : State)
@[simp] theorem State.setStarted_cfg : s.setStarted.cfg = s.cfg := rfl
@[simp] theorem State.setStarted_table : s.setStarted.table = s.table := rfl
@[simp] theorem State.setStarted_cur : s.setStarted.cur = s.cur := rfl
@[simp] theorem State.setStarted_iter : s.setStarted.iter = s.iter := rfl
@[simp] theorem State.setStarted_instCount : s.setStarted.instCount = s.instCount := rfl
@[simp] theorem State.setStarted_started : s.setStarted.started = true := rfl
@[simp] theorem State.setStarted_cnt : s.setStarted.cnt = s.cnt := rfl
@[simp] theorem State.setStarted_tmrOn : s.setStarted.tmrOn = s.tmrOn := rfl
@[simp] theorem State.setStarted_ovie : s.setStarted.ovie = s.ovie := rfl
@[simp] theorem State.setStarted_ovfPend : s.setStarted.ovfPend = s.ovfPend := rfl
@[simp] theorem State.setStarted_pins : s.setStarted.pins = s.pins := rfl
@[simp] theorem State.setStarted_inFlight : s.setStarted.inFlight = s.inFlight := rfl
@[simp] theorem State.setStarted_now : s.setStarted.now = s.now := rfl
@[simp] theorem State.setStarted_trace : s.setStarted.trace = s.trace := rfl
@[simp] theorem State.setStarted_rsp : s.setStarted.rsp = s.rsp := rfl
@[simp] theorem State.setStarted_reqs : s.setStarted.reqs = s.reqs := rfl
@[simp] theorem State.setStarted_responses : s.setStarted.responses = s.responses := rfl
@[simp] theorem State.setStarted_cmdWords : s.setStarted.cmdWords = s.cmdWords := rfl
@[simp] theorem State.setStarted_turns : s.setStarted.turns = s.turns := rfl
@[simp] theorem State.setStarted_turnCount : s.setStarted.turnCount = s.turnCount := rfl
end setStarted_fields

section setInstCount_fields
variable (s : State) (v : BitVec 3)
@[simp] theorem State.setInstCount_cfg : (s.setInstCount v).cfg = s.cfg := rfl
@[simp] theorem State.setInstCount_table : (s.setInstCount v).table = s.table := rfl
@[simp] theorem State.setInstCount_cur : (s.setInstCount v).cur = s.cur := rfl
@[simp] theorem State.setInstCount_iter : (s.setInstCount v).iter = s.iter := rfl
@[simp] theorem State.setInstCount_instCount : (s.setInstCount v).instCount = v := rfl
@[simp] theorem State.setInstCount_started : (s.setInstCount v).started = s.started := rfl
@[simp] theorem State.setInstCount_cnt : (s.setInstCount v).cnt = s.cnt := rfl
@[simp] theorem State.setInstCount_tmrOn : (s.setInstCount v).tmrOn = s.tmrOn := rfl
@[simp] theorem State.setInstCount_ovie : (s.setInstCount v).ovie = s.ovie := rfl
@[simp] theorem State.setInstCount_ovfPend : (s.setInstCount v).ovfPend = s.ovfPend := rfl
@[simp] theorem State.setInstCount_pins : (s.setInstCount v).pins = s.pins := rfl
@[simp] theorem State.setInstCount_inFlight : (s.setInstCount v).inFlight = s.inFlight := rfl
@[simp] theorem State.setInstCount_now : (s.setInstCount v).now = s.now := rfl
@[simp] theorem State.setInstCount_trace : (s.setInstCount v).trace = s.trace := rfl
@[simp] theorem State.setInstCount_rsp : (s.setInstCount v).rsp = s.rsp := rfl
@[simp] theorem State.setInstCount_reqs : (s.setInstCount v).reqs = s.reqs := rfl
@[simp] theorem State.setInstCount_responses : (s.setInstCount v).responses = s.responses := rfl
@[simp] theorem State.setInstCount_cmdWords : (s.setInstCount v).cmdWords = s.cmdWords := rfl
@[simp] theorem State.setInstCount_turns : (s.setInstCount v).turns = s.turns := rfl
@[simp] theorem State.setInstCount_turnCount : (s.setInstCount v).turnCount = s.turnCount := rfl
end setInstCount_fields

section setSequencer_fields
variable (s : State) (c : BitVec 3) (n : Byte)
@[simp] theorem State.setSequencer_cfg : (s.setSequencer c n).cfg = s.cfg := rfl
@[simp] theorem State.setSequencer_table : (s.setSequencer c n).table = s.table := rfl
@[simp] theorem State.setSequencer_cur : (s.setSequencer c n).cur = c := rfl
@[simp] theorem State.setSequencer_iter : (s.setSequencer c n).iter = n := rfl
@[simp] theorem State.setSequencer_instCount : (s.setSequencer c n).instCount = s.instCount := rfl
@[simp] theorem State.setSequencer_started : (s.setSequencer c n).started = s.started := rfl
@[simp] theorem State.setSequencer_cnt : (s.setSequencer c n).cnt = s.cnt := rfl
@[simp] theorem State.setSequencer_tmrOn : (s.setSequencer c n).tmrOn = s.tmrOn := rfl
@[simp] theorem State.setSequencer_ovie : (s.setSequencer c n).ovie = s.ovie := rfl
@[simp] theorem State.setSequencer_ovfPend : (s.setSequencer c n).ovfPend = s.ovfPend := rfl
@[simp] theorem State.setSequencer_pins : (s.setSequencer c n).pins = s.pins := rfl
@[simp] theorem State.setSequencer_inFlight : (s.setSequencer c n).inFlight = s.inFlight := rfl
@[simp] theorem State.setSequencer_now : (s.setSequencer c n).now = s.now := rfl
@[simp] theorem State.setSequencer_trace : (s.setSequencer c n).trace = s.trace := rfl
@[simp] theorem State.setSequencer_rsp : (s.setSequencer c n).rsp = s.rsp := rfl
@[simp] theorem State.setSequencer_reqs : (s.setSequencer c n).reqs = s.reqs := rfl
@[simp] theorem State.setSequencer_responses : (s.setSequencer c n).responses = s.responses := rfl
@[simp] theorem State.setSequencer_cmdWords : (s.setSequencer c n).cmdWords = s.cmdWords := rfl
@[simp] theorem State.setSequencer_turns : (s.setSequencer c n).turns = s.turns := rfl
@[simp] theorem State.setSequencer_turnCount : (s.setSequencer c n).turnCount = s.turnCount := rfl
end setSequencer_fields

section timerConfig_fields
variable (s : State)
@[simp] theorem State.timerConfig_cfg : s.timerConfig.cfg = s.cfg := rfl
@[simp] theorem State.timerConfig_table : s.timerConfig.table = s.table := rfl
@[simp] theorem State.timerConfig_cur : s.timerConfig.cur = s.cur := rfl
@[simp] theorem State.timerConfig_iter : s.timerConfig.iter = s.iter := rfl
@[simp] theorem State.timerConfig_instCount : s.timerConfig.instCount = s.instCount := rfl
@[simp] theorem State.timerConfig_started : s.timerConfig.started = s.started := rfl
@[simp] theorem State.timerConfig_cnt : s.timerConfig.cnt = s.cnt := rfl
@[simp] theorem State.timerConfig_tmrOn : s.timerConfig.tmrOn = true := rfl
@[simp] theorem State.timerConfig_ovie : s.timerConfig.ovie = s.ovie := rfl
@[simp] theorem State.timerConfig_ovfPend : s.timerConfig.ovfPend = s.ovfPend := rfl
@[simp] theorem State.timerConfig_pins : s.timerConfig.pins = s.pins := rfl
@[simp] theorem State.timerConfig_inFlight : s.timerConfig.inFlight = s.inFlight := rfl
@[simp] theorem State.timerConfig_now : s.timerConfig.now = s.now := rfl
@[simp] theorem State.timerConfig_trace : s.timerConfig.trace = s.trace := rfl
@[simp] theorem State.timerConfig_rsp : s.timerConfig.rsp = s.rsp := rfl
@[simp] theorem State.timerConfig_reqs : s.timerConfig.reqs = s.reqs ++ [.tmr .config] := rfl
@[simp] theorem State.timerConfig_responses : s.timerConfig.responses = s.responses := rfl
@[simp] theorem State.timerConfig_cmdWords : s.timerConfig.cmdWords = s.cmdWords := rfl
@[simp] theorem State.timerConfig_turns : s.timerConfig.turns = s.turns := rfl
@[simp] theorem State.timerConfig_turnCount : s.timerConfig.turnCount = s.turnCount := rfl
end timerConfig_fields

section timerLoad_fields
variable (s : State) (v : Byte)
@[simp] theorem State.timerLoad_cfg : (s.timerLoad v).cfg = s.cfg := rfl
@[simp] theorem State.timerLoad_table : (s.timerLoad v).table = s.table := rfl
@[simp] theorem State.timerLoad_cur : (s.timerLoad v).cur = s.cur := rfl
@[simp] theorem State.timerLoad_iter : (s.timerLoad v).iter = s.iter := rfl
@[simp] theorem State.timerLoad_instCount : (s.timerLoad v).instCount = s.instCount := rfl
@[simp] theorem State.timerLoad_started : (s.timerLoad v).started = s.started := rfl
@[simp] theorem State.timerLoad_cnt : (s.timerLoad v).cnt = v := rfl
@[simp] theorem State.timerLoad_tmrOn : (s.timerLoad v).tmrOn = s.tmrOn := rfl
@[simp] theorem State.timerLoad_ovie : (s.timerLoad v).ovie = s.ovie := rfl
@[simp] theorem State.timerLoad_ovfPend : (s.timerLoad v).ovfPend = s.ovfPend := rfl
@[simp] theorem State.timerLoad_pins : (s.timerLoad v).pins = s.pins := rfl
@[simp] theorem State.timerLoad_inFlight : (s.timerLoad v).inFlight = s.inFlight := rfl
@[simp] theorem State.timerLoad_now : (s.timerLoad v).now = s.now := rfl
@[simp] theorem State.timerLoad_trace : (s.timerLoad v).trace = s.trace := rfl
@[simp] theorem State.timerLoad_rsp : (s.timerLoad v).rsp = s.rsp := rfl
@[simp] theorem State.timerLoad_reqs : (s.timerLoad v).reqs = s.reqs ++ [.tmr (.load v)] := rfl
@[simp] theorem State.timerLoad_responses : (s.timerLoad v).responses = s.responses := rfl
@[simp] theorem State.timerLoad_cmdWords : (s.timerLoad v).cmdWords = s.cmdWords := rfl
@[simp] theorem State.timerLoad_turns : (s.timerLoad v).turns = s.turns := rfl
@[simp] theorem State.timerLoad_turnCount : (s.timerLoad v).turnCount = s.turnCount := rfl
end timerLoad_fields

section ovfEnable_fields
variable (s : State)
@[simp] theorem State.ovfEnable_cfg : s.ovfEnable.cfg = s.cfg := rfl
@[simp] theorem State.ovfEnable_table : s.ovfEnable.table = s.table := rfl
@[simp] theorem State.ovfEnable_cur : s.ovfEnable.cur = s.cur := rfl
@[simp] theorem State.ovfEnable_iter : s.ovfEnable.iter = s.iter := rfl
@[simp] theorem State.ovfEnable_instCount : s.ovfEnable.instCount = s.instCount := rfl
@[simp] theorem State.ovfEnable_started : s.ovfEnable.started = s.started := rfl
@[simp] theorem State.ovfEnable_cnt : s.ovfEnable.cnt = s.cnt := rfl
@[simp] theorem State.ovfEnable_tmrOn : s.ovfEnable.tmrOn = s.tmrOn := rfl
@[simp] theorem State.ovfEnable_ovie : s.ovfEnable.ovie = true := rfl
@[simp] theorem State.ovfEnable_ovfPend : s.ovfEnable.ovfPend = false := rfl
@[simp] theorem State.ovfEnable_pins : s.ovfEnable.pins = s.pins := rfl
@[simp] theorem State.ovfEnable_inFlight : s.ovfEnable.inFlight = s.inFlight := rfl
@[simp] theorem State.ovfEnable_now : s.ovfEnable.now = s.now := rfl
@[simp] theorem State.ovfEnable_trace : s.ovfEnable.trace = s.trace := rfl
@[simp] theorem State.ovfEnable_rsp : s.ovfEnable.rsp = s.rsp := rfl
@[simp] theorem State.ovfEnable_reqs : s.ovfEnable.reqs = s.reqs ++ [.tmr .ovfEnable] := rfl
@[simp] theorem State.ovfEnable_responses : s.ovfEnable.responses = s.responses := rfl
@[simp] theorem State.ovfEnable_cmdWords : s.ovfEnable.cmdWords = s.cmdWords := rfl
@[simp] theorem State.ovfEnable_turns : s.ovfEnable.turns = s.turns := rfl
@[simp] theorem State.ovfEnable_turnCount : s.ovfEnable.turnCount = s.turnCount := rfl
end ovfEnable_fields

section advanceNow_fields
variable (s : State)
@[simp] theorem State.advanceNow_cfg : s.advanceNow.cfg = s.cfg := rfl
@[simp] theorem State.advanceNow_table : s.advanceNow.table = s.table := rfl
@[simp] theorem State.advanceNow_cur : s.advanceNow.cur = s.cur := rfl
@[simp] theorem State.advanceNow_iter : s.advanceNow.iter = s.iter := rfl
@[simp] theorem State.advanceNow_instCount : s.advanceNow.instCount = s.instCount := rfl
@[simp] theorem State.advanceNow_started : s.advanceNow.started = s.started := rfl
@[simp] theorem State.advanceNow_cnt : s.advanceNow.cnt = s.cnt := rfl
@[simp] theorem State.advanceNow_tmrOn : s.advanceNow.tmrOn = s.tmrOn := rfl
@[simp] theorem State.advanceNow_ovie : s.advanceNow.ovie = s.ovie := rfl
@[simp] theorem State.advanceNow_ovfPend : s.advanceNow.ovfPend = s.ovfPend := rfl
@[simp] theorem State.advanceNow_pins : s.advanceNow.pins = s.pins := rfl
@[simp] theorem State.advanceNow_inFlight : s.advanceNow.inFlight = s.inFlight := rfl
@[simp] theorem State.advanceNow_now : s.advanceNow.now = s.now + 1 := rfl
@[simp] theorem State.advanceNow_trace : s.advanceNow.trace = s.trace := rfl
@[simp] theorem State.advanceNow_rsp : s.advanceNow.rsp = s.rsp := rfl
@[simp] theorem State.advanceNow_reqs : s.advanceNow.reqs = s.reqs := rfl
@[simp] theorem State.advanceNow_responses : s.advanceNow.responses = s.responses := rfl
@[simp] theorem State.advanceNow_cmdWords : s.advanceNow.cmdWords = s.cmdWords := rfl
@[simp] theorem State.advanceNow_turns : s.advanceNow.turns = s.turns := rfl
@[simp] theorem State.advanceNow_turnCount : s.advanceNow.turnCount = s.turnCount := rfl
end advanceNow_fields

section pinModeOutput_fields
variable (s : State) (p : BitVec 7)
@[simp] theorem State.pinModeOutput_cfg : (s.pinModeOutput p).cfg = s.cfg := rfl
@[simp] theorem State.pinModeOutput_table : (s.pinModeOutput p).table = s.table := rfl
@[simp] theorem State.pinModeOutput_cur : (s.pinModeOutput p).cur = s.cur := rfl
@[simp] theorem State.pinModeOutput_iter : (s.pinModeOutput p).iter = s.iter := rfl
@[simp] theorem State.pinModeOutput_instCount : (s.pinModeOutput p).instCount = s.instCount := rfl
@[simp] theorem State.pinModeOutput_started : (s.pinModeOutput p).started = s.started := rfl
@[simp] theorem State.pinModeOutput_cnt : (s.pinModeOutput p).cnt = s.cnt := rfl
@[simp] theorem State.pinModeOutput_tmrOn : (s.pinModeOutput p).tmrOn = s.tmrOn := rfl
@[simp] theorem State.pinModeOutput_ovie : (s.pinModeOutput p).ovie = s.ovie := rfl
@[simp] theorem State.pinModeOutput_ovfPend : (s.pinModeOutput p).ovfPend = s.ovfPend := rfl
@[simp] theorem State.pinModeOutput_pins : (s.pinModeOutput p).pins = PinMap.makeOutput s.pins p.toNat := rfl
@[simp] theorem State.pinModeOutput_inFlight : (s.pinModeOutput p).inFlight = s.inFlight := rfl
@[simp] theorem State.pinModeOutput_now : (s.pinModeOutput p).now = s.now := rfl
@[simp] theorem State.pinModeOutput_trace : (s.pinModeOutput p).trace = s.trace ++ [(s.now, .modeOutput p)] := rfl
@[simp] theorem State.pinModeOutput_rsp : (s.pinModeOutput p).rsp = s.rsp := rfl
@[simp] theorem State.pinModeOutput_reqs : (s.pinModeOutput p).reqs = s.reqs ++ [.pin (.modeOutput p)] := rfl
@[simp] theorem State.pinModeOutput_responses : (s.pinModeOutput p).responses = s.responses := rfl
@[simp] theorem State.pinModeOutput_cmdWords : (s.pinModeOutput p).cmdWords = s.cmdWords := rfl
@[simp] theorem State.pinModeOutput_turns : (s.pinModeOutput p).turns = s.turns := rfl
@[simp] theorem State.pinModeOutput_turnCount : (s.pinModeOutput p).turnCount = s.turnCount := rfl
end pinModeOutput_fields

section pinWrite_fields
variable (s : State) (p : BitVec 7) (l : Level)
@[simp] theorem State.pinWrite_cfg : (s.pinWrite p l).cfg = s.cfg := rfl
@[simp] theorem State.pinWrite_table : (s.pinWrite p l).table = s.table := rfl
@[simp] theorem State.pinWrite_cur : (s.pinWrite p l).cur = s.cur := rfl
@[simp] theorem State.pinWrite_iter : (s.pinWrite p l).iter = s.iter := rfl
@[simp] theorem State.pinWrite_instCount : (s.pinWrite p l).instCount = s.instCount := rfl
@[simp] theorem State.pinWrite_started : (s.pinWrite p l).started = s.started := rfl
@[simp] theorem State.pinWrite_cnt : (s.pinWrite p l).cnt = s.cnt := rfl
@[simp] theorem State.pinWrite_tmrOn : (s.pinWrite p l).tmrOn = s.tmrOn := rfl
@[simp] theorem State.pinWrite_ovie : (s.pinWrite p l).ovie = s.ovie := rfl
@[simp] theorem State.pinWrite_ovfPend : (s.pinWrite p l).ovfPend = s.ovfPend := rfl
@[simp] theorem State.pinWrite_pins : (s.pinWrite p l).pins = PinMap.drive s.pins p.toNat l := rfl
@[simp] theorem State.pinWrite_inFlight : (s.pinWrite p l).inFlight = s.inFlight := rfl
@[simp] theorem State.pinWrite_now : (s.pinWrite p l).now = s.now := rfl
@[simp] theorem State.pinWrite_trace : (s.pinWrite p l).trace = s.trace ++ [(s.now, .write p l)] := rfl
@[simp] theorem State.pinWrite_rsp : (s.pinWrite p l).rsp = s.rsp := rfl
@[simp] theorem State.pinWrite_reqs : (s.pinWrite p l).reqs = s.reqs ++ [.pin (.write p l)] := rfl
@[simp] theorem State.pinWrite_responses : (s.pinWrite p l).responses = s.responses := rfl
@[simp] theorem State.pinWrite_cmdWords : (s.pinWrite p l).cmdWords = s.cmdWords := rfl
@[simp] theorem State.pinWrite_turns : (s.pinWrite p l).turns = s.turns := rfl
@[simp] theorem State.pinWrite_turnCount : (s.pinWrite p l).turnCount = s.turnCount := rfl
end pinWrite_fields

section answer_fields
variable (s : State) (w : Word)
@[simp] theorem State.answer_cfg : (s.answer w).cfg = s.cfg := rfl
@[simp] theorem State.answer_table : (s.answer w).table = s.table := rfl
@[simp] theorem State.answer_cur : (s.answer w).cur = s.cur := rfl
@[simp] theorem State.answer_iter : (s.answer w).iter = s.iter := rfl
@[simp] theorem State.answer_instCount : (s.answer w).instCount = s.instCount := rfl
@[simp] theorem State.answer_started : (s.answer w).started = s.started := rfl
@[simp] theorem State.answer_cnt : (s.answer w).cnt = s.cnt := rfl
@[simp] theorem State.answer_tmrOn : (s.answer w).tmrOn = s.tmrOn := rfl
@[simp] theorem State.answer_ovie : (s.answer w).ovie = s.ovie := rfl
@[simp] theorem State.answer_ovfPend : (s.answer w).ovfPend = s.ovfPend := rfl
@[simp] theorem State.answer_pins : (s.answer w).pins = s.pins := rfl
@[simp] theorem State.answer_inFlight : (s.answer w).inFlight = none := rfl
@[simp] theorem State.answer_now : (s.answer w).now = s.now := rfl
@[simp] theorem State.answer_trace : (s.answer w).trace = s.trace := rfl
@[simp] theorem State.answer_rsp : (s.answer w).rsp = some w := rfl
@[simp] theorem State.answer_reqs : (s.answer w).reqs = s.reqs := rfl
@[simp] theorem State.answer_responses : (s.answer w).responses = s.responses ++ [w] := rfl
@[simp] theorem State.answer_cmdWords : (s.answer w).cmdWords = s.cmdWords := rfl
@[simp] theorem State.answer_turns : (s.answer w).turns = s.turns := rfl
@[simp] theorem State.answer_turnCount : (s.answer w).turnCount = s.turnCount := rfl
end answer_fields

section setInFlight_fields
variable (s : State) (i : Instr) (n : Nat) (a : Half)
@[simp] theorem State.setInFlight_cfg : (s.setInFlight i n a).cfg = s.cfg := rfl
@[simp] theorem State.setInFlight_table : (s.setInFlight i n a).table = s.table := rfl
@[simp] theorem State.setInFlight_cur : (s.setInFlight i n a).cur = s.cur := rfl
@[simp] theorem State.setInFlight_iter : (s.setInFlight i n a).iter = s.iter := rfl
@[simp] theorem State.setInFlight_instCount : (s.setInFlight i n a).instCount = s.instCount := rfl
@[simp] theorem State.setInFlight_started : (s.setInFlight i n a).started = s.started := rfl
@[simp] theorem State.setInFlight_cnt : (s.setInFlight i n a).cnt = s.cnt := rfl
@[simp] theorem State.setInFlight_tmrOn : (s.setInFlight i n a).tmrOn = s.tmrOn := rfl
@[simp] theorem State.setInFlight_ovie : (s.setInFlight i n a).ovie = s.ovie := rfl
@[simp] theorem State.setInFlight_ovfPend : (s.setInFlight i n a).ovfPend = s.ovfPend := rfl
@[simp] theorem State.setInFlight_pins : (s.setInFlight i n a).pins = s.pins := rfl
@[simp] theorem State.setInFlight_inFlight : (s.setInFlight i n a).inFlight = some ⟨i, n, a⟩ := rfl
@[simp] theorem State.setInFlight_now : (s.setInFlight i n a).now = s.now := rfl
@[simp] theorem State.setInFlight_trace : (s.setInFlight i n a).trace = s.trace := rfl
@[simp] theorem State.setInFlight_rsp : (s.setInFlight i n a).rsp = s.rsp := rfl
@[simp] theorem State.setInFlight_reqs : (s.setInFlight i n a).reqs = s.reqs := rfl
@[simp] theorem State.setInFlight_responses : (s.setInFlight i n a).responses = s.responses := rfl
@[simp] theorem State.setInFlight_cmdWords : (s.setInFlight i n a).cmdWords = s.cmdWords := rfl
@[simp] theorem State.setInFlight_turns : (s.setInFlight i n a).turns = s.turns := rfl
@[simp] theorem State.setInFlight_turnCount : (s.setInFlight i n a).turnCount = s.turnCount := rfl
end setInFlight_fields

section enterHandler_fields
variable (s : State)
@[simp] theorem State.enterHandler_cfg : s.enterHandler.cfg = s.cfg := rfl
@[simp] theorem State.enterHandler_table : s.enterHandler.table = s.table := rfl
@[simp] theorem State.enterHandler_cur : s.enterHandler.cur = s.cur := rfl
@[simp] theorem State.enterHandler_iter : s.enterHandler.iter = s.iter + 1 := rfl
@[simp] theorem State.enterHandler_instCount : s.enterHandler.instCount = s.instCount := rfl
@[simp] theorem State.enterHandler_started : s.enterHandler.started = s.started := rfl
@[simp] theorem State.enterHandler_cnt : s.enterHandler.cnt = s.cnt := rfl
@[simp] theorem State.enterHandler_tmrOn : s.enterHandler.tmrOn = s.tmrOn := rfl
@[simp] theorem State.enterHandler_ovie : s.enterHandler.ovie = s.ovie := rfl
@[simp] theorem State.enterHandler_ovfPend : s.enterHandler.ovfPend = false := rfl
@[simp] theorem State.enterHandler_pins : s.enterHandler.pins = s.pins := rfl
@[simp] theorem State.enterHandler_inFlight : s.enterHandler.inFlight = s.inFlight := rfl
@[simp] theorem State.enterHandler_now : s.enterHandler.now = s.now := rfl
@[simp] theorem State.enterHandler_trace : s.enterHandler.trace = s.trace := rfl
@[simp] theorem State.enterHandler_rsp : s.enterHandler.rsp = s.rsp := rfl
@[simp] theorem State.enterHandler_reqs : s.enterHandler.reqs = s.reqs := rfl
@[simp] theorem State.enterHandler_responses : s.enterHandler.responses = s.responses := rfl
@[simp] theorem State.enterHandler_cmdWords : s.enterHandler.cmdWords = s.cmdWords := rfl
@[simp] theorem State.enterHandler_turns : s.enterHandler.turns = s.turns := rfl
@[simp] theorem State.enterHandler_turnCount : s.enterHandler.turnCount = s.turnCount := rfl
end enterHandler_fields

section clearPorts_fields
variable (s : State)
@[simp] theorem State.clearPorts_cfg : s.clearPorts.cfg = s.cfg := rfl
@[simp] theorem State.clearPorts_table : s.clearPorts.table = s.table := rfl
@[simp] theorem State.clearPorts_cur : s.clearPorts.cur = s.cur := rfl
@[simp] theorem State.clearPorts_iter : s.clearPorts.iter = s.iter := rfl
@[simp] theorem State.clearPorts_instCount : s.clearPorts.instCount = s.instCount := rfl
@[simp] theorem State.clearPorts_started : s.clearPorts.started = s.started := rfl
@[simp] theorem State.clearPorts_cnt : s.clearPorts.cnt = s.cnt := rfl
@[simp] theorem State.clearPorts_tmrOn : s.clearPorts.tmrOn = s.tmrOn := rfl
@[simp] theorem State.clearPorts_ovie : s.clearPorts.ovie = s.ovie := rfl
@[simp] theorem State.clearPorts_ovfPend : s.clearPorts.ovfPend = s.ovfPend := rfl
@[simp] theorem State.clearPorts_pins : s.clearPorts.pins = s.pins := rfl
@[simp] theorem State.clearPorts_inFlight : s.clearPorts.inFlight = s.inFlight := rfl
@[simp] theorem State.clearPorts_now : s.clearPorts.now = s.now := rfl
@[simp] theorem State.clearPorts_trace : s.clearPorts.trace = s.trace := rfl
@[simp] theorem State.clearPorts_rsp : s.clearPorts.rsp = none := rfl
@[simp] theorem State.clearPorts_reqs : s.clearPorts.reqs = [] := rfl
@[simp] theorem State.clearPorts_responses : s.clearPorts.responses = s.responses := rfl
@[simp] theorem State.clearPorts_cmdWords : s.clearPorts.cmdWords = s.cmdWords := rfl
@[simp] theorem State.clearPorts_turns : s.clearPorts.turns = s.turns := rfl
@[simp] theorem State.clearPorts_turnCount : s.clearPorts.turnCount = s.turnCount := rfl
end clearPorts_fields

end Sys2Proof.Machine
end

