-- ==== Sys2Proof/Laws/Ops.lean ====
section
/-! SUPPORT. For each shared operation one lemma that says everything it can do. -/

namespace Sys2Proof.Machine

/-! ### The table -/

/-- A slot that reads exists, and reads as it is stored but for slot 0's hard-wired flag. -/
theorem State.slot_ok_iff {s : State} {i : Nat} {sl : Slot} :
    s.slot i = .ok sl ↔
      ∃ st, s.table[i]? = some st ∧ sl = if i = 0 then { st with pinActive := false } else st := by
  unfold State.slot
  cases s.table[i]? with
  | none => simp
  | some st => simp [eq_comm]

theorem State.slot_servo {s : State} {i : Nat} {sl : Slot} (hi : i ≠ 0) :
    s.slot i = .ok sl ↔ s.table[i]? = some sl := by
  simp [State.slot_ok_iff, hi]

theorem State.slot_zero_inactive {s : State} {sl : Slot} (h : s.slot 0 = .ok sl) : sl.pinActive = false := by
  obtain ⟨st, -, rfl⟩ := State.slot_ok_iff.mp h
  rfl

/-- Reading a slot fails exactly where it does not exist. -/
theorem State.slot_error_iff {s : State} {i : Nat} {f : Fault} :
    s.slot i = .error f ↔ s.table[i]? = none ∧ f = .noSuchSlot i := by
  unfold State.slot
  cases s.table[i]? with
  | none => simp [eq_comm]
  | some st => simp

/-- A slot write answers with slot 0 protected and every other slot changed in place. -/
theorem State.updateSlot_ok_iff {s t : State} {i : Nat} {f : Slot → Slot} :
    s.updateSlot i f = .ok t ↔
      (i = 0 ∧ t = s) ∨ (i ≠ 0 ∧ ∃ sl, s.table[i]? = some sl ∧ t = { s with table := s.table.set i (f sl) }) := by
  unfold State.updateSlot
  split
  next h => simp [h, eq_comm]
  next h =>
    split
    next hn => simp [h, hn]
    next sl hs => simp [h, hs, eq_comm]

theorem State.updateSlot_servo {s : State} {i : Nat} {f : Slot → Slot} {sl : Slot} (hi : i ≠ 0)
    (h : s.table[i]? = some sl) : s.updateSlot i f = .ok { s with table := s.table.set i (f sl) } :=
  State.updateSlot_ok_iff.mpr (.inr ⟨hi, sl, h, rfl⟩)

/-- A slot write changes nothing but the table. -/
theorem State.updateSlot_frame {s t : State} {i : Nat} {f : Slot → Slot} (h : s.updateSlot i f = .ok t) :
    t = { s with table := t.table } := by
  rcases State.updateSlot_ok_iff.mp h with ⟨-, rfl⟩ | ⟨-, sl, -, rfl⟩ <;> rfl

/-- A slot write keeps the table's length (R20) and every slot but `slot[i]`, slot 0 among them (R62). -/
theorem State.updateSlot_table {s t : State} {i : Nat} {f : Slot → Slot} (h : s.updateSlot i f = .ok t) :
    t.table.length = s.table.length ∧ (∀ j, j ≠ i → t.table[j]? = s.table[j]?) ∧ t.table[0]? = s.table[0]? := by
  rcases State.updateSlot_ok_iff.mp h with ⟨-, rfl⟩ | ⟨hi, sl, -, rfl⟩
  · exact ⟨rfl, fun _ _ => rfl, rfl⟩
  · refine ⟨by simp, fun j hj => ?_, ?_⟩
    · simp [List.getElem?_set_ne (Ne.symm hj)]
    · simp [List.getElem?_set_ne hi]

/-! ### The pins -/

theorem State.pinMode_pinModeOutput (s : State) (p q : BitVec 7) :
    (s.pinModeOutput p).pinMode q = if q = p then .output else s.pinMode q := by
  simp only [State.pinMode, State.pinModeOutput_pins, PinMap.get_makeOutput, BitVec.toNat_inj]
  split <;> rfl

theorem State.pinLevel_pinModeOutput (s : State) (p q : BitVec 7) :
    (s.pinModeOutput p).pinLevel q = s.pinLevel q := by
  simp only [State.pinLevel, State.pinModeOutput_pins, PinMap.get_makeOutput, BitVec.toNat_inj]
  split
  next h => rw [h]
  next => rfl

theorem State.pinLevel_pinWrite (s : State) (p q : BitVec 7) (l : Level) :
    (s.pinWrite p l).pinLevel q = if q = p then .driven l else s.pinLevel q := by
  simp only [State.pinLevel, State.pinWrite_pins, PinMap.get_drive, BitVec.toNat_inj]
  split <;> rfl

theorem State.pinMode_pinWrite (s : State) (p q : BitVec 7) (l : Level) :
    (s.pinWrite p l).pinMode q = s.pinMode q := by
  simp only [State.pinMode, State.pinWrite_pins, PinMap.get_drive, BitVec.toNat_inj]
  split
  next h => rw [h]
  next => rfl

theorem State.driveSlot_inactive {s : State} {sl : Slot} (h : sl.pinActive = false) (l : Level) :
    s.driveSlot sl l = s := by simp [State.driveSlot, h]

theorem State.driveSlot_active {s : State} {sl : Slot} (h : sl.pinActive = true) (l : Level) :
    s.driveSlot sl l = s.pinWrite sl.pinId l := by simp [State.driveSlot, h]

/-- Driving a slot's pin changes the pins, the trace and the request port only. -/
theorem State.driveSlot_frame (s : State) (sl : Slot) (l : Level) :
    s.driveSlot sl l = { s with pins := (s.driveSlot sl l).pins, trace := (s.driveSlot sl l).trace,
                                reqs := (s.driveSlot sl l).reqs } := by
  unfold State.driveSlot
  split <;> rfl

/-! ### Commands -/

/-- Everything a command's micro-step can do: where the host's part of the machine stands, what it answers. -/
theorem State.perform_next {s t : State} {i : Instr} {prog : List MicroOp} {first : Nat} {acc0 : Half}
    (h : s.perform i prog first acc0 = .next t) :
    ∃ k acc, s.position i first acc0 = some (k, acc) ∧
      ((i.wellFormed s.cfg = false ∧ t = s.respondIll) ∨
       (i.wellFormed s.cfg = true ∧ prog[k]? = none ∧ t = s.respond acc) ∨
       (i.wellFormed s.cfg = true ∧ ∃ op u v, prog[k]? = some op ∧ MicroOp.run s acc op = .ok (u, v) ∧
          t = u.afterMicroStep i (k + 1) prog.length v)) := by
  unfold State.perform at h
  split at h
  · cases h
  next k acc hp =>
    refine ⟨k, acc, hp, ?_⟩
    split at h
    next hw =>
      split at h
      next hk => exact .inr (.inl ⟨hw, hk, by simpa using h.symm⟩)
      next op hk =>
        split at h
        · cases h
        next u v hr => exact .inr (.inr ⟨hw, op, u, v, hk, hr, by simpa using h.symm⟩)
    next hw => exact .inl ⟨by simpa using hw, by simpa using h.symm⟩

/-- A micro-step that is there is taken. -/
theorem State.perform_step {s u : State} {i : Instr} {prog : List MicroOp} {first k : Nat} {acc0 acc v : Half}
    {op : MicroOp} (hp : s.position i first acc0 = some (k, acc)) (hw : i.wellFormed s.cfg = true)
    (hk : prog[k]? = some op) (hr : MicroOp.run s acc op = .ok (u, v)) :
    s.perform i prog first acc0 = .next (u.afterMicroStep i (k + 1) prog.length v) := by
  simp [State.perform, hp, hw, hk, hr]

/-- A command with no micro-step answers at once. -/
theorem State.perform_done {s : State} {i : Instr} {prog : List MicroOp} {first k : Nat} {acc0 acc : Half}
    (hp : s.position i first acc0 = some (k, acc)) (hw : i.wellFormed s.cfg = true) (hk : prog[k]? = none) :
    s.perform i prog first acc0 = .next (s.respond acc) := by
  simp [State.perform, hp, hw, hk]

theorem State.position_fresh {s : State} (h : s.inFlight = none) (i : Instr) (first : Nat) (acc0 : Half) :
    s.position i first acc0 = some (first, acc0) := by simp [State.position, h]

theorem State.position_resumed {s : State} {i : Instr} {n : Nat} {acc : Half} (h : s.inFlight = some ⟨i, n, acc⟩)
    (first : Nat) (acc0 : Half) : s.position i first acc0 = some (n, acc) := by simp [State.position, h]

/-- After a micro-step the command answers or stays in flight. -/
theorem State.afterMicroStep_cases (s : State) (i : Instr) (n total : Nat) (acc : Half) :
    (n < total ∧ s.afterMicroStep i n total acc = s.setInFlight i n acc) ∨
    (total ≤ n ∧ s.afterMicroStep i n total acc = s.respond acc) := by
  unfold State.afterMicroStep
  split
  · exact .inl ⟨‹_›, rfl⟩
  · exact .inr ⟨by omega, rfl⟩

/-- What a micro-step leaves alone: the parameters, the sequencer, time, slot 0 and the table's length, every pin's
level, the ports of the host and the environment's inputs (R34, R62, R171). -/
theorem MicroOp.run_frame {s t : State} {acc v : Half} {op : MicroOp} (h : MicroOp.run s acc op = .ok (t, v)) :
    t.cfg = s.cfg ∧ t.cur = s.cur ∧ t.iter = s.iter ∧ t.now = s.now ∧ t.inFlight = s.inFlight ∧ t.rsp = s.rsp ∧
    t.responses = s.responses ∧ t.cmdWords = s.cmdWords ∧ t.turns = s.turns ∧ t.turnCount = s.turnCount ∧
    t.table[0]? = s.table[0]? ∧ t.table.length = s.table.length ∧ ∀ p, t.pinLevel p = s.pinLevel p := by
  have upd : ∀ {i : Nat} {f : Slot → Slot} {a : Half}, (s.updateSlot i f).map (·, a) = .ok (t, v) →
      t.cfg = s.cfg ∧ t.cur = s.cur ∧ t.iter = s.iter ∧ t.now = s.now ∧ t.inFlight = s.inFlight ∧ t.rsp = s.rsp ∧
      t.responses = s.responses ∧ t.cmdWords = s.cmdWords ∧ t.turns = s.turns ∧ t.turnCount = s.turnCount ∧
      t.table[0]? = s.table[0]? ∧ t.table.length = s.table.length ∧ ∀ p, t.pinLevel p = s.pinLevel p := by
    intro i f a h
    cases hu : s.updateSlot i f with
    | error e => simp [hu, Except.map] at h
    | ok u =>
      obtain ⟨rfl, -⟩ : u = t ∧ a = v := by simpa [hu, Except.map] using h
      have hf := State.updateSlot_frame hu
      obtain ⟨hl, -, h0⟩ := State.updateSlot_table hu
      refine ⟨?_, ?_, ?_, ?_, ?_, ?_, ?_, ?_, ?_, ?_, h0, hl, ?_⟩
      all_goals first | (intro p; rw [hf]; rfl) | rw [hf]
  have rd : ∀ {i : Nat} {g : Slot → Half}, (s.slot i).map (fun sl => (s, g sl)) = .ok (t, v) → t = s := by
    intro i g h
    cases hu : s.slot i with
    | error e => simp [hu, Except.map] at h
    | ok sl => exact ((by simpa [hu, Except.map] using h : s = t ∧ _).1).symm
  cases op with
  | writePinId i p => exact upd h
  | writePinActive i b => exact upd h
  | writeTickBlocks i b => exact upd h
  | writeRemainder i b => exact upd h
  | readPinActive i => obtain rfl := rd h; simp
  | readTickBlocks i => obtain rfl := rd h; simp
  | readRemainder i => obtain rfl := rd h; simp
  | pinModeOutput p =>
    obtain ⟨rfl, -⟩ : s.pinModeOutput p = t ∧ acc = v := by simpa [MicroOp.run] using h
    simp [State.pinLevel_pinModeOutput]
  | takeIndex =>
    obtain ⟨rfl, -⟩ : _ = t ∧ _ = v := by simpa [MicroOp.run] using h
    simp [State.pinLevel]
  | timerConfig =>
    obtain ⟨rfl, -⟩ : _ = t ∧ _ = v := by simpa [MicroOp.run] using h
    simp [State.pinLevel]
  | timerLoad b =>
    obtain ⟨rfl, -⟩ : _ = t ∧ _ = v := by simpa [MicroOp.run] using h
    simp [State.pinLevel]
  | ovfEnable =>
    obtain ⟨rfl, -⟩ : _ = t ∧ _ = v := by simpa [MicroOp.run] using h
    simp [State.pinLevel]
  | setStarted =>
    obtain ⟨rfl, -⟩ : _ = t ∧ _ = v := by simpa [MicroOp.run] using h
    simp [State.pinLevel]

/-! ### The handler -/

/-- Everything the start of a slot can do (R110 step 3). -/
theorem State.beginSlot_ok {s t : State} (h : s.beginSlot = .ok t) :
    (s.cfg.nCh < s.cur.toNat ∧ t = s.setSequencer 0 s.iter) ∨
    (s.cur.toNat ≤ s.cfg.nCh ∧ ∃ new, s.slot s.cur.toNat = .ok new ∧ t = s.driveSlot new .high) := by
  unfold State.beginSlot at h
  split at h
  next hw => exact .inl ⟨hw, by simpa using h.symm⟩
  next hw =>
    refine .inr ⟨by omega, ?_⟩
    cases hs : s.slot s.cur.toNat with
    | error e => simp [hs, Except.map] at h
    | ok new => exact ⟨new, rfl, by simpa [hs, Except.map] using h.symm⟩

/-- Everything a handler run can do: exactly one of steps 2, 3, 4 of R110. -/
theorem execOvf_next {s t : State} (h : execOvf s = .next t) :
    ∃ old, s.slot s.cur.toNat = .ok old ∧
      ((s.iter + 1 = old.tickBlocks ∧ t = s.enterHandler.timerLoad old.remainder) ∨
       (s.iter + 1 ≠ old.tickBlocks ∧ old.tickBlocks < s.iter + 1 ∧
          ((s.enterHandler.driveSlot old .low).setSequencer (s.cur + 1) 0 |>.timerLoad 0).beginSlot = .ok t) ∨
       (s.iter + 1 < old.tickBlocks ∧ t = s.enterHandler)) := by
  unfold execOvf State.handler State.handlerBody at h
  have hslot : ∀ i, s.enterHandler.slot i = s.slot i := fun _ => rfl
  rw [State.enterHandler_cur, hslot] at h
  cases hs : s.slot s.cur.toNat with
  | error e => simp [hs] at h
  | ok old =>
    refine ⟨old, rfl, ?_⟩
    simp only [hs, State.handleSlot] at h
    by_cases h1 : s.enterHandler.iter = old.tickBlocks
    · rw [if_pos h1] at h
      exact .inl ⟨h1, by simpa [Except.map, State.leaveHandler] using h.symm⟩
    · rw [if_neg h1] at h
      by_cases h2 : old.tickBlocks < s.enterHandler.iter
      · rw [if_pos h2] at h
        refine .inr (.inl ⟨h1, h2, ?_⟩)
        unfold State.endSlot at h
        cases hb : (((s.enterHandler.driveSlot old .low).setSequencer (s.enterHandler.cur + 1) 0).timerLoad 0).beginSlot with
        | error e => rw [hb] at h; simp [Except.map] at h
        | ok u =>
          rw [hb] at h
          have hu : u = t := by simpa [Except.map, State.leaveHandler] using h
          exact hu ▸ hb
      · rw [if_neg h2] at h
        refine .inr (.inr ⟨?_, by simpa [Except.map, State.leaveHandler] using h.symm⟩)
        rw [State.enterHandler_iter] at h1 h2
        bv_omega

/-! ### The step -/

/-- Everything a step can do (R58, R164, R165, R185). -/
theorem step_cases (s : State) :
    (s.nextTurn = .rst ∧ step s = .next s.takeTurn.resetStep) ∨
    (s.nextTurn ≠ .rst ∧ s.ovfPend = true ∧ step s = exec .ovf s.clearPorts) ∨
    (s.nextTurn = .timer ∧ s.ovfPend = false ∧ step s = exec .tick s.takeTurn.clearPorts) ∨
    (s.nextTurn = .host ∧ s.ovfPend = false ∧ step s = s.takeTurn.clearPorts.hostTurn) := by
  unfold step State.arbitrate
  cases ht : s.nextTurn <;> cases hp : s.ovfPend <;> simp

/-- Taking a turn changes the environment's inputs only. -/
theorem State.takeTurn_frame (s : State) :
    s.takeTurn = { s with turns := s.takeTurn.turns, turnCount := s.takeTurn.turnCount } := by
  unfold State.takeTurn
  split <;> rfl

end Sys2Proof.Machine
end

