-- ==== Sys2Proof/Laws/PerInstr.lean ====
section
/-! SUPPORT. Statements about every operation, one lemma for each. Family TableRow: the code of an operation matches
its row of spec/opcode_table.json. -/

namespace Sys2Proof.Laws.TableRow

open Sys2Proof

/-- The bits of ATTACH's operand that must be 0: `0xFFFF & ~(2^PIN_W - 1)` (the row's note on PIN_W). -/
def pinMask (c : Config) : Half := ~~~(BitVec.ofNat 16 (2 ^ c.pinW - 1))

/-- A row's mask and match; the rows of format EVT1 have neither. -/
def row (c : Config) : Instr → Option (Word × Word)
  | .construct => some (0xFFFFFFFF, 0x10000000)
  | .attach _ _ => some (0xF0FF0000 ||| (pinMask c).setWidth 32, 0x20000000)
  | .detach _ => some (0xF0FFFFFF, 0x30000000)
  | .attached _ => some (0xF0FFFFFF, 0x40000000)
  | .writeUs _ _ => some (0xF0FF0000, 0x50000000)
  | .readUs _ => some (0xF0FFFFFF, 0x60000000)
  | .ovf => none
  | .tick => none

/-- A code is of the row: a word agrees with the match where the mask is 1, a strobe is `1`. -/
def Matches : Code → Option (Word × Word) → Prop
  | .word w, some (mask, value) => w &&& mask = value
  | .strobe _ b, none => b = 1
  | .word _, none => False
  | .strobe _ _, some _ => False

/-- A well-formed operation's code matches its row of the table. -/
def Statement (i : Instr) : Prop :=
  ∀ c : Config, i.wellFormed c = true → Matches (encode i) (row c i)

/-- Masking a word masks its fields. -/
theorem masked (o ch m z : BitVec 4) (y : Byte) (x n : Half) :
    commandWord o ch x &&& (m ++ z ++ y ++ n) = commandWord (o &&& m) (ch &&& z) (x &&& n) := by
  apply BitVec.eq_of_getLsbD_eq
  intro i hi
  simp only [BitVec.getLsbD_and, commandWord_bit, BitVec.getLsbD_append]
  repeat' split
  all_goals first | rfl | omega

/-- The bits of an operand above a pin identifier are 0. -/
theorem pin_masked (k : Nat) (p : BitVec 7) (h : p.toNat < 2 ^ k) :
    p.setWidth 16 &&& ~~~(BitVec.ofNat 16 (2 ^ k - 1)) = 0 := by
  apply BitVec.eq_of_getLsbD_eq
  intro i hi
  simp only [BitVec.getLsbD_and, BitVec.getLsbD_setWidth, BitVec.getLsbD_not, BitVec.getLsbD_ofNat,
    Nat.testBit_two_pow_sub_one, hi]
  by_cases hik : i < k
  · simp [hik]
  · have : p.getLsbD i = false :=
      Nat.testBit_lt_two_pow (Nat.lt_of_lt_of_le h (Nat.pow_le_pow_right (by omega) (by omega)))
    simp [this]

theorem attach_mask (n : Half) : (0xF0FF0000 : Word) ||| n.setWidth 32 = 0xF#4 ++ 0x0#4 ++ 0xFF#8 ++ n := by
  apply BitVec.eq_of_getLsbD_eq
  intro i hi
  simp only [BitVec.getLsbD_or, BitVec.getLsbD_setWidth, BitVec.getLsbD_append]
  interval_cases i <;> simp

theorem construct : Statement .construct := fun _ _ => (by decide : commandWord 1 0 0 &&& 0xFFFFFFFF = 0x10000000)

theorem attach (ch : BitVec 4) (pin : BitVec 7) : Statement (.attach ch pin) := by
  intro c hw
  have hpin : pin.toNat < 2 ^ c.pinW := by
    have := (Bool.and_eq_true_iff.mp hw).2
    simpa [pinOk] using this
  show commandWord 2 ch (pin.setWidth 16) &&& ((0xF0FF0000 : Word) ||| (pinMask c).setWidth 32) = 0x20000000
  rw [attach_mask, masked, pinMask, pin_masked c.pinW pin hpin]
  simp [commandWord]

theorem detach (ch : BitVec 4) : Statement (.detach ch) := by
  intro c _
  show commandWord 3 ch 0 &&& (0xF#4 ++ 0x0#4 ++ 0xFF#8 ++ 0xFFFF#16) = 0x30000000
  rw [masked]
  simp [commandWord]

theorem attached (ch : BitVec 4) : Statement (.attached ch) := by
  intro c _
  show commandWord 4 ch 0 &&& (0xF#4 ++ 0x0#4 ++ 0xFF#8 ++ 0xFFFF#16) = 0x40000000
  rw [masked]
  simp [commandWord]

theorem writeUs (ch : BitVec 4) (width : Half) : Statement (.writeUs ch width) := by
  intro c _
  show commandWord 5 ch width &&& (0xF#4 ++ 0x0#4 ++ 0xFF#8 ++ 0x0000#16) = 0x50000000
  rw [masked]
  simp [commandWord]

theorem readUs (ch : BitVec 4) : Statement (.readUs ch) := by
  intro c _
  show commandWord 6 ch 0 &&& (0xF#4 ++ 0x0#4 ++ 0xFF#8 ++ 0xFFFF#16) = 0x60000000
  rw [masked]
  simp [commandWord]

theorem ovf : Statement .ovf := fun _ _ => rfl

theorem tick : Statement .tick := fun _ _ => rfl

end Sys2Proof.Laws.TableRow
end

