-- ==== Sys2Proof/Laws/Runs.lean ====
section
/-! SUPPORT. What a micro-step, a command and the host's turn can do, and how runs of micro-steps and of ticks are cut. -/

namespace Sys2Proof.Machine

theorem except_map_ok {α β ε} {x : Except ε α} {f : α → β} {y : β} (h : x.map f = .ok y) : ∃ a, x = .ok a ∧ f a = y := by
  cases x with
  | error e => cases h
  | ok a => exact ⟨a, rfl, by simpa [Except.map] using h⟩

/-- A command is a run of micro-steps of the one shared operation. -/
theorem exec_command {i : Instr} (hc : i.isCommand = true) (s : State) :
    ∃ prog first acc0, exec i s = s.perform i prog first acc0 := by
  cases i <;> first | exact ⟨_, _, _, rfl⟩ | cases hc

/-- The three reading micro-steps change no state (R56). -/
theorem MicroOp.run_read {s t : State} {acc v : Half} {op : MicroOp} (h : MicroOp.run s acc op = .ok (t, v))
    (hop : (∃ r, op = .readPinActive r) ∨ (∃ r, op = .readTickBlocks r) ∨ (∃ r, op = .readRemainder r)) : t = s := by
  have rd : ∀ {i : Nat} {g : Slot → Half}, (s.slot i).map (fun sl => (s, g sl)) = .ok (t, v) → t = s := by
    intro i g h
    obtain ⟨u, hu, e⟩ := except_map_ok h
    exact (by simpa using e : s = t ∧ _ = v).1.symm
  rcases hop with ⟨r, rfl⟩ | ⟨r, rfl⟩ | ⟨r, rfl⟩ <;> exact rd h

/-- What a micro-step adds: it clears no enable, lowers no count, makes no output a non-output, and its requests are the
ones its entries of the trace record (R31, R32, R43, R168, R171, R203). -/
theorem MicroOp.run_effects {s t : State} {acc v : Half} {op : MicroOp} (h : MicroOp.run s acc op = .ok (t, v)) :
    (s.started = true → t.started = true) ∧ (s.tmrOn = true → t.tmrOn = true) ∧ (s.ovie = true → t.ovie = true) ∧
    (s.instCount.toNat ≤ t.instCount.toNat ∨ 6 < s.cfg.nCh) ∧
    (∃ l, t.reqs = s.reqs ++ l ∧ t.trace = s.trace ++ (pinRequests l).map fun r => (s.now, r)) ∧
    ∀ p, s.pinMode p = .output → t.pinMode p = .output := by
  have none' : ∃ l, s.reqs = s.reqs ++ l ∧ s.trace = s.trace ++ (pinRequests l).map fun r => (s.now, r) :=
    ⟨[], by simp [pinRequests]⟩
  have one : ∀ r : TimerRequest, ∃ l, s.reqs ++ [.tmr r] = s.reqs ++ l ∧
      s.trace = s.trace ++ (pinRequests l).map fun r => (s.now, r) := fun r => ⟨[.tmr r], rfl, by simp [pinRequests]⟩
  have wr : ∀ {i : Nat} {f : Slot → Slot} {a : Half}, (s.updateSlot i f).map (·, a) = .ok (t, v) →
      t = { s with table := t.table } := by
    intro i f a h
    obtain ⟨u, hu, e⟩ := except_map_ok h
    obtain ⟨rfl, -⟩ : u = t ∧ _ = v := by simpa using e
    exact State.updateSlot_frame hu
  cases op with
  | writePinId i p => rw [wr h]; exact ⟨id, id, id, .inl le_rfl, none', fun _ h => h⟩
  | writePinActive i p => rw [wr h]; exact ⟨id, id, id, .inl le_rfl, none', fun _ h => h⟩
  | writeTickBlocks i p => rw [wr h]; exact ⟨id, id, id, .inl le_rfl, none', fun _ h => h⟩
  | writeRemainder i p => rw [wr h]; exact ⟨id, id, id, .inl le_rfl, none', fun _ h => h⟩
  | readPinActive i => rw [MicroOp.run_read h (by simp)]; exact ⟨id, id, id, .inl le_rfl, none', fun _ h => h⟩
  | readTickBlocks i => rw [MicroOp.run_read h (by simp)]; exact ⟨id, id, id, .inl le_rfl, none', fun _ h => h⟩
  | readRemainder i => rw [MicroOp.run_read h (by simp)]; exact ⟨id, id, id, .inl le_rfl, none', fun _ h => h⟩
  | pinModeOutput p =>
    obtain ⟨rfl, -⟩ : s.pinModeOutput p = t ∧ acc = v := by simpa [MicroOp.run] using h
    refine ⟨id, id, id, .inl le_rfl, ⟨[.pin (.modeOutput p)], rfl, rfl⟩, ?_⟩
    intro q hq; rw [State.pinMode_pinModeOutput]; split <;> simp [hq]
  | takeIndex =>
    obtain ⟨rfl, -⟩ : _ = t ∧ _ = v := by simpa [MicroOp.run] using h
    refine ⟨id, id, id, ?_, none', fun _ h => h⟩
    by_cases h6 : 6 < s.cfg.nCh
    · exact .inr h6
    · left; show _ ≤ (nextIndex _ _).1.toNat; unfold nextIndex; split
      · simp [BitVec.toNat_add]; omega
      · exact le_rfl
  | timerConfig =>
    obtain ⟨rfl, -⟩ : _ = t ∧ _ = v := by simpa [MicroOp.run] using h
    exact ⟨id, fun _ => rfl, id, .inl le_rfl, one _, fun _ h => h⟩
  | timerLoad b =>
    obtain ⟨rfl, -⟩ : _ = t ∧ _ = v := by simpa [MicroOp.run] using h
    exact ⟨id, id, id, .inl le_rfl, one _, fun _ h => h⟩
  | ovfEnable =>
    obtain ⟨rfl, -⟩ : _ = t ∧ _ = v := by simpa [MicroOp.run] using h
    exact ⟨id, id, fun _ => rfl, .inl le_rfl, one _, fun _ h => h⟩
  | setStarted =>
    obtain ⟨rfl, -⟩ : _ = t ∧ _ = v := by simpa [MicroOp.run] using h
    exact ⟨fun _ => rfl, id, id, .inl le_rfl, none', fun _ h => h⟩

/-- What decodes is a command (R72). -/
theorem decode_isCommand {c : Config} {w : Word} {i : Instr} (h : decode c w = .ok i) : i.isCommand = true := by
  unfold decode decodeConstruct decodeAttach decodeNoOperand at h
  repeat' split at h
  all_goals first | (cases h; done) | (cases h; rfl)

/-- Everything the host's turn can be: the command in flight goes on, the host is idle, a new command begins, or a
reserved word is answered (R37, R58, R75). -/
theorem State.hostTurn_cases (s : State) : (∃ f, s.inFlight = some f ∧ s.hostTurn = exec f.cmd s) ∨
    (s.inFlight = none ∧ (s.hostTurn = .next s ∨ ∃ w rest, s.cmdWords = w :: rest ∧
      ((∃ i, decode s.cfg w = .ok i ∧ s.hostTurn = exec i { s with cmdWords := rest }) ∨
       ((∃ e, decode s.cfg w = .error e) ∧ s.hostTurn = .next (State.respondIll { s with cmdWords := rest }))))) := by
  unfold State.hostTurn
  split
  next f hf => exact .inl ⟨f, hf, rfl⟩
  next hf =>
    refine .inr ⟨hf, ?_⟩
    split
    · exact .inl rfl
    next w rest hw =>
      refine .inr ⟨w, rest, hw, ?_⟩
      unfold State.accept
      cases hd : decode s.cfg w with
      | ok i => exact .inl ⟨i, rfl, by simp⟩
      | error e => exact .inr ⟨⟨e, rfl⟩, by simp⟩

/-! ### Runs -/

theorem execTimes_succ (n i s) : execTimes (n+1) i s = match exec i s with
    | .next t => execTimes n i t
    | .fault f => .fault f
    | .refused r => .refused r := rfl

theorem execTimes_add (m n : Nat) (i : Instr) : ∀ s t, execTimes m i s = .next t → execTimes (m + n) i s = execTimes n i t := by
  induction m with
  | zero => intro s t h; simp [execTimes] at h; simp [h]
  | succ m ih =>
    intro s t h
    rw [Nat.add_right_comm, execTimes_succ]
    rw [execTimes_succ] at h
    cases he : exec i s with
    | next u => rw [he] at h; exact ih u t h
    | fault f => rw [he] at h; cases h
    | refused f => rw [he] at h; cases h

theorem refTicks_succ (n s) : refTicks (n+1) s = match refTick s with
    | .next t => refTicks n t
    | .fault f => .fault f
    | .refused r => .refused r := rfl

theorem refTicks_add (m n : Nat) : ∀ s t, refTicks m s = .next t → refTicks (m + n) s = refTicks n t := by
  induction m with
  | zero => intro s t h; simp [refTicks] at h; simp [h]
  | succ m ih =>
    intro s t h
    rw [Nat.add_right_comm, refTicks_succ]
    rw [refTicks_succ] at h
    cases he : refTick s with
    | next u => rw [he] at h; exact ih u t h
    | fault f => rw [he] at h; cases h
    | refused f => rw [he] at h; cases h

/-! ### Ticks of the reference timing (R118, R119) -/

/-- A TICK always answers, in the timer's operations. -/
theorem execTick_eq (s : State) : exec .tick s = .next
    (if s.ovfPend then s else if s.tmrOn then s.advanceNow.countUp else s.advanceNow) := by
  unfold exec execTick
  cases s.ovfPend <;> cases s.tmrOn <;> rfl

/-- Short of the overflow only time and the counter move. -/
theorem refTicks_below_overflow (n : Nat) : ∀ s : State, s.ovfPend = false → s.tmrOn = true →
    s.cnt.toNat + n < 256 →
    refTicks n s = .next { s with now := s.now + n, cnt := BitVec.ofNat 8 (s.cnt.toNat + n) } := by
  induction n with
  | zero => intro s _ _ _; simp [refTicks]
  | succ n ih =>
    intro s hp ht hn
    have hc : s.cnt ≠ 255 := by intro h; rw [h] at hn; simp at hn; omega
    have e : (s.cnt + 1).toNat = s.cnt.toNat + 1 := by simp [BitVec.toNat_add]; omega
    have h1 : refTick s = .next { s with now := s.now + 1, cnt := s.cnt + 1 } := by
      have h2 : s.advanceNow.countUp = { s with now := s.now + 1, cnt := s.cnt + 1 } := by
        rw [State.countUp, if_neg (show s.advanceNow.cnt ≠ 255 from hc)]; rfl
      rw [refTick, execTick_eq, hp, ht, if_neg (by decide), if_pos rfl, h2]; simp [hp, ht]
    have := ih { s with now := s.now + 1, cnt := s.cnt + 1 } hp ht (by show (s.cnt + 1).toNat + n < 256; omega)
    simp only [refTicks_succ, h1, this, e]
    congr 2
    · congr 1; omega
    · omega

/-- The tick that brings the overflow runs the handler in the same instant (R119, R165). -/
theorem refTicks_to_overflow (s : State) (hp : s.ovfPend = false) (ht : s.tmrOn = true) (ho : s.ovie = true) :
    refTicks (256 - s.cnt.toNat) s =
      exec .ovf { s with now := s.now + (256 - s.cnt.toNat), cnt := 0, ovfPend := true } := by
  have hlt := s.cnt.isLt
  have hq := refTicks_below_overflow (255 - s.cnt.toNat) s hp ht (by omega)
  have e : s.cnt.toNat + (255 - s.cnt.toNat) = 255 := by omega
  rw [show 256 - s.cnt.toNat = (255 - s.cnt.toNat) + 1 by omega, refTicks_add _ 1 _ _ hq, refTicks_succ, e]
  have h1 : exec .tick { s with now := s.now + (255 - s.cnt.toNat), cnt := BitVec.ofNat 8 255 } =
      .next { s with now := s.now + (255 - s.cnt.toNat + 1), cnt := 0, ovfPend := true } := by
    simp [execTick_eq, hp, ht, ho, State.countUp, State.advanceNow, Nat.add_assoc]
  simp only [refTick, h1, if_true]
  cases exec .ovf { s with now := s.now + (255 - s.cnt.toNat + 1), cnt := 0, ovfPend := true } <;> rfl

end Sys2Proof.Machine
end

