-- ==== Sys2Proof/Machine/Assembly.lean ====
section
/-! DEFINITION. The textual form of commands, events and responses (spec/30_encoding.md R78). No step reads it. -/

namespace Sys2Proof.Machine

/-- An operation as R78 writes it: the mnemonic, then its decoded fields, comma separated, decimal. -/
def Instr.text : Instr → String
  | .construct => "CONSTRUCT"
  | .attach ch pin => "ATTACH " ++ toString ch.toNat ++ ", " ++ toString pin.toNat
  | .detach ch => "DETACH " ++ toString ch.toNat
  | .attached ch => "ATTACHED " ++ toString ch.toNat
  | .writeUs ch width => "WRITE_US " ++ toString ch.toNat ++ ", " ++ toString width.toInt
  | .readUs ch => "READ_US " ++ toString ch.toNat
  | .ovf => "OVF"
  | .tick => "TICK"

/-- A response as R78 writes it: `-> value` or `-> ILL`. -/
def responseText (w : Word) : String :=
  if illBit w then "-> ILL" else "-> " ++ toString (valueField w).toNat

/-- `n` consecutive ticks (R78). -/
def ticksText (n : Nat) : String := "TICK*" ++ toString n

/-- The value of a digit in base 10 or 16. -/
def digitValue (base : Nat) (c : Char) : Option Nat :=
  let v :=
    if '0' ≤ c ∧ c ≤ '9' then some (c.toNat - '0'.toNat)
    else if 'a' ≤ c ∧ c ≤ 'f' then some (c.toNat - 'a'.toNat + 10)
    else if 'A' ≤ c ∧ c ≤ 'F' then some (c.toNat - 'A'.toNat + 10)
    else none
  v.filter (· < base)

/-- Digits read left to right onto `acc`. -/
def readDigits (base : Nat) (acc : Nat) : List Char → Option Nat
  | [] => some acc
  | c :: cs => (digitValue base c).bind fun d => readDigits base (acc * base + d) cs

/-- An unsigned number, decimal unless `0x` prefixed (R78). -/
def readNat : List Char → Option Nat
  | [] => none
  | '0' :: 'x' :: d :: ds => readDigits 16 0 (d :: ds)
  | cs => readDigits 10 0 cs

/-- A number with an optional minus sign, for `width` (R73, R78). -/
def readInt : List Char → Option Int
  | '-' :: cs => (readNat cs).map fun n => -(n : Int)
  | cs => (readNat cs).map fun n => (n : Int)

/-- The text split at a separator. -/
def splitAt (sep : Char) : List Char → List (List Char)
  | [] => [[]]
  | c :: cs =>
    if c = sep then [] :: splitAt sep cs
    else match splitAt sep cs with
      | [] => [[c]]
      | part :: parts => (c :: part) :: parts

/-- The mnemonic and the comma-separated fields of a line, blanks left out of the fields. -/
def lineFields (t : List Char) : List Char × List (List Char) :=
  match splitAt ' ' t with
  | [] => ([], [])
  | [m] => (m, [])
  | m :: rest => (m, splitAt ',' rest.flatten)

/-- A `chan` field, if it fits 4 bits. -/
def readChan (cs : List Char) : Option (BitVec 4) :=
  ((readNat cs).filter (· < 16)).map (BitVec.ofNat 4)

/-- The operation a line of text stands for (R78); there are no pseudo-instructions (R79). -/
def parseText (t : String) : Option Instr :=
  match lineFields t.toList with
  | (m, []) =>
    if m = "CONSTRUCT".toList then some .construct
    else if m = "OVF".toList then some .ovf
    else if m = "TICK".toList then some .tick
    else none
  | (m, [a]) =>
    (readChan a).bind fun ch =>
      if m = "DETACH".toList then some (.detach ch)
      else if m = "ATTACHED".toList then some (.attached ch)
      else if m = "READ_US".toList then some (.readUs ch)
      else none
  | (m, [a, b]) =>
    (readChan a).bind fun ch =>
      if m = "ATTACH".toList then ((readNat b).filter (· < 128)).map fun p => .attach ch (BitVec.ofNat 7 p)
      else if m = "WRITE_US".toList then
        ((readInt b).filter fun w => -32768 ≤ w ∧ w ≤ 32767).map fun w => .writeUs ch (BitVec.ofInt 16 w)
      else none
  | _ => none

end Sys2Proof.Machine
end

