-- ==== Sys2Proof/Tests/Slice0.lean ====
section
/-! SUPPORT. Small tests of single steps against the tables of spec/95_test_vectors.md and the examples of the rules,
and a witness for the hypotheses of every statement. -/

namespace Sys2Proof.Tests

open Sys2Proof Sys2Proof.Machine

/-! ### WellFormed: an ill-formed term for each check (R73, R75) -/

theorem test_chan_above_n_ch_is_ill_formed :
    (Instr.detach 5).wellFormed Config.default = false ∧ (Instr.attached 5).wellFormed Config.default = false ∧
    (Instr.writeUs 5 0).wellFormed Config.default = false ∧ (Instr.readUs 15).wellFormed Config.default = false ∧
    (Instr.attach 5 9).wellFormed Config.default = false ∧ (Instr.detach 4).wellFormed Config.default = true := by decide

theorem test_pin_above_pin_w_is_ill_formed :
    (Instr.attach 1 32).wellFormed Config.default = false ∧ (Instr.attach 1 31).wellFormed Config.default = true := by
  decide

/-! ### Decoding: a word for every constructor and for every ground of R75 (V-DEC, 30_encoding.md section 8) -/

theorem test_decode_construct : decode Config.default 0b00010000000000000000000000000000 = .ok .construct := by decide
theorem test_decode_attach : decode Config.default 0b00100100000000000000000000011111 = .ok (.attach 4 31) := by decide
theorem test_decode_detach : decode Config.default 0b00110001000000000000000000000000 = .ok (.detach 1) := by decide
theorem test_decode_attached : decode Config.default 0b01000010000000000000000000000000 = .ok (.attached 2) := by decide
theorem test_decode_write_us : decode Config.default 0b01010011000000001111111111111111 = .ok (.writeUs 3 (-1)) := by
  decide
theorem test_decode_read_us : decode Config.default 0b01100100000000000000000000000000 = .ok (.readUs 4) := by decide
theorem test_decode_ovf : decodeCode Config.default (.strobe .ovf 1) = .ok .ovf := by decide
theorem test_decode_tick : decodeCode Config.default (.strobe .tick 1) = .ok .tick := by decide

theorem test_reserved_opcodes : decode Config.default 0x00000000 = .error .reservedOpcode ∧
    decode Config.default 0x70000000 = .error .reservedOpcode ∧
    decode Config.default 0xF1000000 = .error .reservedOpcode := by decide
theorem test_reserved_fields : decode Config.default 0x25000009 = .error .chanOutOfRange ∧
    decode Config.default 0x21010009 = .error .zeroFieldNotZero ∧
    decode Config.default 0x21000020 = .error .mustBeZero ∧ decode Config.default 0x11000000 = .error .mustBeZero ∧
    decode Config.default 0x10000001 = .error .mustBeZero ∧ decode Config.default 0x31000001 = .error .mustBeZero ∧
    decode Config.default 0x42000100 = .error .mustBeZero ∧ decode Config.default 0x64008000 = .error .mustBeZero := by
  decide
theorem test_no_event : decodeCode Config.default (.strobe .ovf 0) = .error .noEvent ∧
    decodeCode Config.default (.strobe .tick 0) = .error .noEvent := by decide
theorem test_short_stream : decodeBytes Config.default [0x09, 0x00, 0x00] = .error .tooShort ∧
    decodeBytes Config.default [0x09, 0x00, 0x00, 0x21, 0x55] = .ok (.attach 1 9, [0x55]) := by decide
theorem test_encode : encode (.writeUs 1 1500) = .word 0x510005DC ∧ encode (.attach 1 9) = .word 0x21000009 := by decide
theorem test_table_word : decodeTableWord 32 0x2400001F = some (.attach 4 31) ∧ decodeTableWord 8 1 = some .ovf ∧
    decodeTableWord 32 0x70000000 = none := by decide

/-! ### The encoder (V-ENC) -/

theorem test_enc_corners : enc Config.default (-32768) = (3, 39) ∧ enc Config.default 499 = (3, 39) ∧
    enc Config.default 519 = (3, 1) ∧ enc Config.default 520 = (4, 255) ∧ enc Config.default 1000 = (7, 63) ∧
    enc Config.default 1928 = (15, 255) ∧ enc Config.default 32767 = (15, 111) := by decide
theorem test_slot_ticks : slotTicks 52 0 = 13568 ∧ slotTicks 52 255 = 13313 ∧ slotTicks 7 87 = 1961 ∧
    slotTicks 3 111 = 913 := by decide

/-! ### States for the tests -/

/-- From reset, the host about to issue `w` (V-WR, V-REG: each row issued alone). -/
def issuing (w : Nat) : State := State.reset.withFetchWord 32 w

/-- The timer runs; slot 1 holds `(9, active, 11, 87)` and its pin is an output (V-REG row 4); `cur`, `iter` given. -/
def running (cur : BitVec 3) (iter : Byte) : State :=
  { State.reset with
    table := State.reset.table.set 1 ⟨9, true, 11, 87⟩, started := true, tmrOn := true, ovie := true,
    pins := [(9, ⟨.output, .driven .high⟩)], instCount := 1, cur := cur, iter := iter, turns := [.timer] }

/-- A field of the next state. -/
def after {α : Type} (o : Host.Outcome State Fault Refusal) (f : State → α) : Option α := (Outcome.state? o).map f

/-! ### One step of each operation -/

/-- R140's example: the first CONSTRUCT answers 1. -/
theorem test_construct : after (step (issuing 0x10000000)) (fun t => (t.instCount, t.rsp)) = some (1, some 1) := by
  decide
/-- R140: the fifth answers 0 and the count stays. -/
theorem test_construct_exhausted :
    after (exec .construct { State.reset with instCount := 4 }) (fun t => (t.instCount, t.rsp)) = some (4, some 0) := by
  decide
/-- V-REG row 4: the first micro-step of the first ATTACH is TimerConfig. -/
theorem test_attach_first : after (step (issuing 0x21000009)) (fun t => (t.tmrOn, t.reqs, t.inFlight)) =
    some (true, [.tmr .config], some ⟨.attach 1 9, 1, 1⟩) := by decide
/-- V-REG row 4, the whole command, with its requests in order. -/
theorem test_attach_whole : after (execTimes 7 (.attach 1 9) State.reset) (fun t => (t.reqs, t.rsp, t.table[1]?)) =
    some ([.tmr .config, .tmr (.load 0), .tmr .ovfEnable, .pin (.modeOutput 9)], some 1, some ⟨9, true, 11, 87⟩) := by
  decide
/-- R144's example. -/
theorem test_detach : after (exec (.detach 1) (running 0 0)) (fun t => (t.table[1]?, t.rsp)) =
    some (some ⟨9, false, 11, 87⟩, some 0) := by decide
/-- S5: DETACH of a never-attached slot from reset. -/
theorem test_detach_never_attached : after (step (issuing 0x32000000)) (fun t => (t.table, t.reqs, t.rsp)) =
    some (State.reset.table, [], some 0) := by decide
/-- V-REG: ATTACHED of an active slot and of slot 3 after reset. -/
theorem test_attached : after (exec (.attached 1) (running 0 0)) (fun t => t.rsp) = some (some 1) ∧
    after (step (issuing 0x43000000)) (fun t => t.rsp) = some (some 0) := by decide
/-- V-WR row 3: the torn pair after micro-step 1 of `WRITE_US 3, -5`. -/
theorem test_write_us_torn : after (step (issuing 0x5300FFFB)) (fun t => (t.table[3]?, t.rsp)) =
    some (some ⟨0, false, 3, 87⟩, none) := by decide
/-- V-WR row 4: `WRITE_US 4, 520` leaves (4, 255). -/
theorem test_write_us_whole : after (execTimes 2 (.writeUs 4 520) State.reset) (fun t => (t.table[4]?, t.rsp)) =
    some (some ⟨0, false, 4, 255⟩, some 0) := by decide
/-- R98's example: after reset READ_US answers 1500; `READ_US 0` answers 0 in one step. -/
theorem test_read_us : after (execTimes 2 (.readUs 2) State.reset) (fun t => t.rsp) = some (some 0x000005DC) ∧
    after (step (issuing 0x60000000)) (fun t => t.rsp) = some (some 0) := by decide
/-- V-DEC: a reserved ATTACH word answers ILL and does not activate the scheduler. -/
theorem test_reserved_step : after (step (issuing 0x21000020)) (fun t => (t.rsp, t.started, t.tmrOn, t.reqs)) =
    some (some 0x80000000, false, false, []) := by decide
/-- V-OVF row 7. -/
theorem test_ovf_loads : after (exec .ovf (running 1 10)) (fun t => (t.cur, t.iter, t.reqs)) =
    some (1, 11, [.tmr (.load 87)]) := by decide
/-- V-OVF row 9: the old pin low before the load; and row 4's rising edge, by a step with the strobe. -/
theorem test_ovf_ends_slot : after (exec .ovf (running 1 11)) (fun t => (t.cur, t.iter, t.reqs)) =
    some (2, 0, [.pin (.write 9 .low), .tmr (.load 0)]) ∧
    after (step ((running 0 52).withFetchWord 8 1)) (fun t => (t.cur, t.reqs)) =
    some (1, [.tmr (.load 0), .pin (.write 9 .high)]) := by decide
/-- V-TICK rows 4 and 5. -/
theorem test_tick_wraps : after (step { running 1 3 with cnt := 255 }) (fun t => (t.cnt, t.ovfPend, t.now)) =
    some (0, true, 1) ∧
    after (step { running 1 3 with cnt := 255, ovie := false }) (fun t => (t.cnt, t.ovfPend)) = some (0, false) := by
  decide
/-- V-TICK row 1 and the last row: off, only `now` moves; pending, nothing moves. -/
theorem test_tick_off : after (exec .tick State.reset) (fun t => (t.cnt, t.now)) = some (0, 1) ∧
    after (exec .tick { running 1 3 with ovfPend := true }) (fun t => (t.cnt, t.now, t.ovfPend)) =
    some (0, 0, true) := by decide
/-- R164: a command word and a pending overflow in one step: the handler runs, the word waits. -/
theorem test_handler_first :
    after (step { running 1 3 with ovfPend := true, turns := [.host], cmdWords := [0x10000000] })
      (fun t => (t.iter, t.instCount, t.cmdWords, t.turns)) = some (4, 1, [0x10000000], [.host]) := by decide
/-- R185. -/
theorem test_rst : after (step { running 1 3 with ovfPend := true, turns := [.rst] })
    (fun t => (t.cur, t.started, t.ovfPend, t.table, t.pins.isEmpty)) = some (0, false, false, State.reset.table, true) := by
  decide

/-! ### Ports and text -/

/-- R77's table. -/
theorem test_ports : TimerRequest.port .config = (0, 0) ∧ TimerRequest.port (.load 87) = (1, 87) ∧
    TimerRequest.port .ovfEnable = (2, 0) ∧ PinRequest.port (.modeOutput 9) = (0, 9, 0) ∧
    PinRequest.port (.write 9 .low) = (1, 9, 0) ∧ PinRequest.port (.write 9 .high) = (1, 9, 1) := by decide
/-- R78 and 30_encoding.md section 8. -/
theorem test_text : Instr.text (.writeUs 3 (-1)) = "WRITE_US 3, -1" ∧ Instr.text .construct = "CONSTRUCT" ∧
    responseText 0x000005DC = "-> 1500" ∧ responseText 0x80000000 = "-> ILL" ∧ ticksText 40000 = "TICK*40000" := by
  decide
theorem test_parse : parseText "ATTACH 1, 9" = some (.attach 1 9) ∧ parseText "WRITE_US 3, -1" = some (.writeUs 3 (-1)) ∧
    parseText "READ_US 0x4" = some (.readUs 4) ∧ parseText "OVF" = some .ovf := by decide

/-! ### Witnesses: the hypotheses of the statements are met -/

theorem witness_DecodeOfEncode : ConfigValid Config.default ∧
    (Instr.attach 4 31).wellFormed Config.default = true := by decide
theorem witness_EncodeOfDecode : ConfigValid Config.default ∧
    decode Config.default 0x2400001F = .ok (.attach 4 31) := by decide
/-- A word for each ground of R75, at the edge of its range where it has one, each issued from a state that meets
the other hypotheses. -/
theorem witness_ReservedWordsAnswerIll :
    (ReservedWord Config.default 0x00000000 ∧ ReservedWord Config.default 0x70000000 ∧
      ReservedWord Config.default 0xF1000000 ∧ ReservedWord Config.default 0x25000009 ∧
      ReservedWord Config.default 0x21010009 ∧ ReservedWord Config.default 0x11000000 ∧
      ReservedWord Config.default 0x10000001 ∧ ReservedWord Config.default 0x21000020 ∧
      ReservedWord Config.default 0x31000001 ∧ ReservedWord Config.default 0x42000100 ∧
      ReservedWord Config.default 0x64008000 ∧ ¬ ReservedWord Config.default 0x2400001F) ∧
    ConfigValid (issuing 0x70000000).cfg ∧ (issuing 0x70000000).nextTurn = .host ∧
    (issuing 0x70000000).ovfPend = false ∧ (issuing 0x70000000).inFlight = none ∧
    (issuing 0x70000000).cmdWords = [0x70000000] := by
  refine ⟨⟨?_, ?_, ?_, ?_, ?_, ?_, ?_, ?_, ?_, ?_, ?_, ?_⟩, by decide⟩ <;> unfold ReservedWord <;> decide
theorem witness_StepRunsTheIssuedCommand : (issuing 0x510003E8).nextTurn = .host ∧
    (issuing 0x510003E8).ovfPend = false ∧ (issuing 0x510003E8).inFlight = none ∧
    (issuing 0x510003E8).cmdWords = [0x510003E8] ∧
    decode (issuing 0x510003E8).cfg 0x510003E8 = .ok (.writeUs 1 1000) := by decide
/-- A state for each of the three clauses. -/
theorem witness_StepRunsTheAgentWhoseTurnItIs :
    (∃ s : State, s.nextTurn ≠ .rst ∧ s.ovfPend = true) ∧
    ((running 1 3).nextTurn = .timer ∧ (running 1 3).ovfPend = false) ∧
    ∃ s : State, s.nextTurn = .host ∧ s.ovfPend = false ∧ s.inFlight = some ⟨.writeUs 1 1000, 1, 0⟩ :=
  ⟨⟨{ running 1 3 with ovfPend := true }, by decide⟩, by decide,
   { State.reset with turns := [.host], inFlight := some ⟨.writeUs 1 1000, 1, 0⟩ }, by decide⟩
theorem witness_RstGivesTheResetState : ∃ s : State, s.nextTurn = .rst := ⟨{ running 1 3 with turns := [.rst] }, rfl⟩
/-- An instance other than the default one meets the constraints too. -/
theorem witness_EncoderFollowsItsFourSteps : ConfigValid Config.default ∧
    ConfigValid { Config.default with nCh := 6, framePeriodUs := 20000, pinW := 7 } := by decide
theorem witness_ReadBackIsExact : ConfigValid Config.default ∧ (Config.default.minPulseUs : Int) ≤ 500 ∧
    (2000 : Int) ≤ Config.default.maxPulseUs := by decide
/-- R94's injectivity has distinct arguments in range. -/
theorem witness_EncoderProperties : (500 : Int) ≤ 500 ∧ (500 : Int) ≤ 2000 ∧ (500 : Int) ≤ 2000 ∧
    enc Config.default 500 = enc Config.default 500 := by decide
theorem witness_ConstructGivesTheNextIndex :
    ∃ s u : State, ConfigValid s.cfg ∧ s.inFlight = none ∧ s.instCount.toNat < s.cfg.nCh ∧
      ConfigValid u.cfg ∧ u.inFlight = none ∧ u.cfg.nCh ≤ u.instCount.toNat :=
  ⟨{ State.reset with instCount := 3 }, { State.reset with instCount := 4 }, by decide⟩
theorem witness_WriteUsWritesBlocksThenRemainder :
    ∃ s u : State, s.cfg.writeOrder = .byRule ∧ chanOk s.cfg 4 = true ∧ s.table[4]? = some ⟨0, false, 11, 87⟩ ∧
      s.inFlight = none ∧ u.cfg = s.cfg ∧ u.table[4]? = some ⟨0, false, 4, 87⟩ ∧
      u.inFlight = some ⟨.writeUs 4 520, 1, 0⟩ :=
  ⟨State.reset, { State.reset with table := State.reset.table.set 4 ⟨0, false, 4, 87⟩,
                                   inFlight := some ⟨.writeUs 4 520, 1, 0⟩ }, by decide⟩
/-- For WRITE_US, READ_US, DETACH and ATTACHED as whole commands on slot 4, and for the inert handle. -/
theorem witness_whole_commands : chanOk State.reset.cfg 4 = true ∧ (4 : BitVec 4) ≠ 0 ∧ State.reset.inFlight = none ∧
    ConfigValid State.reset.cfg ∧ State.reset.table[4]? = some ⟨0, false, 11, 87⟩ := by decide
theorem witness_WriteUsStoresTheEncodedPair : chanOk State.reset.cfg 4 = true ∧ (4 : BitVec 4) ≠ 0 ∧
    State.reset.inFlight = none ∧ State.reset.table[4]? = some ⟨0, false, 11, 87⟩ := by decide
/-- The second micro-step of READ_US with a handler run between: a state with the same parameters and in flight. -/
theorem witness_ReadUsAnswersDec : ∃ (f : InFlight) (u : State), exec (.readUs 4) State.reset = .next { State.reset with inFlight := some f } ∧
    u.inFlight = some f ∧ u.cfg = State.reset.cfg ∧ u.table[4]? = some ⟨0, false, 11, 87⟩ ∧ u.iter = 1 :=
  ⟨⟨.readUs 4, 1, 11⟩, { State.reset with inFlight := some ⟨.readUs 4, 1, 11⟩, iter := 1 }, rfl, by decide⟩
theorem witness_ReadUsAfterWriteUs : ConfigValid State.reset.cfg ∧ chanOk State.reset.cfg 1 = true ∧
    State.reset.inFlight = none ∧ State.reset.table[1]? = some ⟨0, false, 11, 87⟩ := by decide
theorem witness_DetachClearsActive : chanOk (running 0 0).cfg 1 = true ∧ (running 0 0).inFlight = none ∧
    (running 0 0).table[1]? = some ⟨9, true, 11, 87⟩ := by decide
theorem witness_AttachedAnswersActive : chanOk (running 0 0).cfg 1 = true ∧ (running 0 0).inFlight = none ∧
    (running 0 0).table[1]? = some ⟨9, true, 11, 87⟩ := by decide
/-- A state in flight at each of ACTIVATE's four micro-steps, for the inert handle and for slot 4. -/
theorem witness_AttachActivatesFirst : chanOk State.reset.cfg 4 = true ∧ chanOk State.reset.cfg 0 = true ∧
    pinOk State.reset.cfg 31 = true ∧ State.reset.inFlight = none ∧ State.reset.started = false ∧
    ∀ ch ∈ [(0 : BitVec 4), 4], ∀ n ∈ [1, 2, 3], ∃ s : State, s.cfg = State.reset.cfg ∧
      s.inFlight = some ⟨.attach ch 31, n, 4⟩ :=
  ⟨by decide, by decide, by decide, by decide, by decide, fun ch _ n _ =>
    ⟨{ State.reset with inFlight := some ⟨.attach ch 31, n, 4⟩ }, rfl, rfl⟩⟩
theorem witness_AttachBindsThePin : (running 0 0).cfg.writeOrder = .byRule ∧ chanOk (running 0 0).cfg 4 = true ∧
    pinOk (running 0 0).cfg 31 = true ∧ (running 0 0).table[4]? = some ⟨0, false, 11, 87⟩ ∧
    (running 0 0).inFlight = none ∧ (running 0 0).started = true ∧
    ∀ n ∈ [4, 5, 6], ∃ s : State, s.cfg = (running 0 0).cfg ∧ s.table = (running 0 0).table ∧
      s.inFlight = some ⟨.attach 4 31, n, 4⟩ :=
  ⟨by decide, by decide, by decide, by decide, by decide, by decide, fun n _ =>
    ⟨{ running 0 0 with inFlight := some ⟨.attach 4 31, n, 4⟩ }, rfl, rfl, rfl⟩⟩
theorem witness_AttachCompletes : chanOk State.reset.cfg 4 = true ∧ pinOk State.reset.cfg 31 = true ∧
    State.reset.inFlight = none ∧ State.reset.started = false ∧ State.reset.table[4]? = some ⟨0, false, 11, 87⟩ ∧
    chanOk (running 0 0).cfg 1 = true ∧ (running 0 0).inFlight = none ∧ (running 0 0).started = true ∧
    (running 0 0).table[1]? = some ⟨9, true, 11, 87⟩ := by decide
theorem witness_InertHandle : State.reset.inFlight = none ∧ State.reset.started = false ∧
    (running 0 0).inFlight = none ∧ (running 0 0).started = true ∧ pinOk State.reset.cfg 9 = true ∧
    pinOk (running 0 0).cfg 9 = true := by decide
theorem witness_OneResponsePerCommand : (Instr.writeUs 1 1000).isCommand = true ∧
    (∃ t, exec (.writeUs 1 1000) State.reset = .next t ∧ t.inFlight ≠ none) ∧
    ∃ t, exec (.writeUs 0 1000) State.reset = .next t ∧ t.inFlight = none :=
  ⟨rfl, ⟨_, rfl, by decide⟩, ⟨_, rfl, rfl⟩⟩
theorem witness_ChanIsNotCheckedAgainstInstCount : ∃ t, (Instr.writeUs 3 1000).isCommand = true ∧
    Instr.writeUs 3 1000 ≠ .construct ∧ exec (.writeUs 3 1000) State.reset = .next t := ⟨_, rfl, by decide, rfl⟩
theorem witness_SecondCommandIsRefused : ∃ s : State, Instr.construct.isCommand = true ∧
    s.inFlight = some ⟨.readUs 1, 1, 11⟩ ∧ Instr.readUs 1 ≠ .construct :=
  ⟨{ State.reset with inFlight := some ⟨.readUs 1, 1, 11⟩ }, by decide⟩
theorem witness_IllFormedCommandsAnswerIll : (Instr.detach 5).wellFormed State.reset.cfg = false ∧
    (Instr.attach 1 32).wellFormed State.reset.cfg = false ∧ State.reset.inFlight = none := by decide
theorem witness_TickCounts : (running 1 3).ovfPend = false ∧ (running 1 3).tmrOn = true ∧ (running 1 3).ovie = true ∧
    255 < 256 - (running 1 3).cnt.toNat := by decide
theorem witness_TickWaitsWhilePending : ∃ s : State, s.ovfPend = true := ⟨{ running 1 3 with ovfPend := true }, rfl⟩
/-- One state for each of R110's cases: the load (V-OVF row 7), nothing (row 6), the end of a slot (row 9) and the end
of the last slot (row 12). -/
theorem witness_HandlerSteps :
    (running 1 10).cfg.nCh ≤ 6 ∧ (running 1 10).slot 1 = .ok ⟨9, true, 11, 87⟩ ∧ (10 : Byte) + 1 = 11 ∧
    (9 : Byte) + 1 < 11 ∧ (11 : Byte) < 11 + 1 ∧ (1 : BitVec 3).toNat < (running 1 11).cfg.nCh ∧
    (running 1 11).slot (1 + 1) = .ok ⟨0, false, 11, 87⟩ ∧ (4 : BitVec 3).toNat = (running 4 11).cfg.nCh ∧
    (running 4 11).slot 4 = .ok ⟨0, false, 11, 87⟩ := by decide
theorem witness_HandlerIgnoresStarted : ∃ t, exec .ovf (running 1 11) = .next t := ⟨_, rfl⟩
theorem witness_MissingSlotsFault : ∃ s : State, s.table[s.cur.toNat]? = none ∧ chanOk s.cfg 4 = true ∧
    s.inFlight = none ∧ s.table[4]? = none := ⟨{ State.reset with table := [], cur := 5 }, by decide⟩
theorem witness_EventsFrame : (∃ t, exec .tick (running 1 11) = .next t) ∧
    ∃ t, exec .ovf (running 1 11) = .next t ∧ t.pinLevel 9 ≠ (running 1 11).pinLevel 9 :=
  ⟨⟨_, rfl⟩, _, rfl, by decide⟩
theorem witness_ReadingCommandsFrame : (∃ t, exec (.attached 1) State.reset = .next t) ∧
    (∃ t, exec (.readUs 1) State.reset = .next t) ∧ ∃ t, exec .construct State.reset = .next t :=
  ⟨⟨_, rfl⟩, ⟨_, rfl⟩, ⟨_, rfl⟩⟩
theorem witness_WritingCommandsFrame : (∃ t, exec (.writeUs 1 1000) State.reset = .next t ∧
      t.table[1]? = some ⟨0, false, 7, 87⟩) ∧
    ∃ t, exec (.detach 1) (running 0 0) = .next t ∧ t.table[1]? = some ⟨9, false, 11, 87⟩ :=
  ⟨⟨_, rfl, rfl⟩, ⟨_, rfl, rfl⟩⟩
theorem witness_AttachFrame : ∃ t, exec (.attach 1 9) State.reset = .next t := ⟨_, rfl⟩

/-- The invariant of a state with a servo attached and its pin high. -/
theorem running_meets_inv (cur : BitVec 3) (iter : Byte) (hc : cur.toNat ≤ 4) (hi : iter.toNat ≤ 254) :
    Inv (running cur iter) where
  cfg_valid := by decide +revert
  table_length := rfl
  sync_slot := rfl
  servo_slots := by
    intro i sl h1 hs
    have h5 : i < 5 := (List.getElem?_eq_some_iff.mp hs).1
    have hb : (sl.tickBlocks, sl.remainder) = enc Config.default 1500 ∧ sl.pinId.toNat < 32 := by
      interval_cases i <;> cases hs <;> decide
    exact ⟨hb.2, ⟨1500, congrArg Prod.fst hb.1⟩, ⟨1500, congrArg Prod.snd hb.1⟩⟩
  cur_range := hc
  iter_range := hi
  instCount_range := by decide +revert
  pins_wf := rfl
  started_active := fun _ => ⟨rfl, rfl⟩
  ovie_on := fun _ => rfl
  pend_enabled := fun _ => rfl
  attach_active := fun _ _ _ _ h => by cases h

theorem witness_StepKeepsTheInvariant : ∃ t, Inv (running 1 10) ∧ step (running 1 10) = .next t :=
  ⟨_, running_meets_inv 1 10 (by decide) (by decide), rfl⟩
theorem witness_StepKeepsACommandInFlight : ∃ s t : State, InFlightOk s ∧ step s = .next t ∧ t.inFlight ≠ none :=
  ⟨issuing 0x510003E8, _, fun _ h => (by cases h), rfl, by decide⟩
theorem witness_StepKeepsPinsMadeOutput : ∃ t, PinsMadeOutput (running 1 10) ∧ step (running 1 10) = .next t := by
  refine ⟨_, ⟨rfl, ?_, fun _ _ _ _ h => (by cases h), fun _ _ _ _ _ h => (by cases h)⟩, rfl⟩
  intro i sl h1 hs ha
  have h5 : i < 5 := (List.getElem?_eq_some_iff.mp hs).1
  interval_cases i <;> cases hs <;> first | rfl | cases ha
theorem witness_NoStateIsStuck : Inv (running 4 254) := running_meets_inv 4 254 (by decide) (by decide)
theorem witness_SlotZeroIsNeverWritten : ∃ t, step (running 1 10) = .next t ∧ (running 1 10).nextTurn ≠ .rst :=
  ⟨_, rfl, by decide⟩
theorem witness_NothingIsTornDown : ∃ t, Inv (running 1 10) ∧ step (running 1 10) = .next t ∧
    (running 1 10).nextTurn ≠ .rst ∧ (running 1 10).started = true ∧ (running 1 10).tmrOn = true ∧
    (running 1 10).ovie = true := ⟨_, running_meets_inv 1 10 (by decide) (by decide), rfl, by decide⟩
theorem witness_ParametersNeverChange : ∃ t, step { running 1 3 with turns := [.rst] } = .next t := ⟨_, rfl⟩
/-- A handler run that wraps the cursor. -/
theorem witness_CursorRotates : ∃ s t : State, InFlightOk s ∧ s.cfg.nCh ≤ 6 ∧ s.cur.toNat ≤ s.cfg.nCh ∧ step s = .next t ∧
    s.nextTurn ≠ .rst ∧ t.cur ≠ s.cur :=
  ⟨{ running 4 11 with ovfPend := true }, _, fun _ h => (by cases h), by decide, by decide, rfl, by decide, by decide⟩
theorem witness_OnlyTheHandlerDrivesPins : ∃ s t : State, InFlightOk s ∧ step s = .next t ∧ s.nextTurn ≠ .rst ∧
    t.pinLevel 9 ≠ s.pinLevel 9 :=
  ⟨{ running 1 11 with ovfPend := true }, _, fun _ h => (by cases h), rfl, by decide, by decide⟩
theorem witness_TraceRecordsThePinRequests : ∃ s t : State, step s = .next t ∧ s.nextTurn ≠ .rst ∧ t.reqs ≠ [] :=
  ⟨{ running 1 11 with ovfPend := true }, _, rfl, by decide, by decide⟩
/-- A slot at the reset width, and R116's slot of no block. -/
theorem witness_SlotDuration : (SlotBegins (running 1 0) ∧ (running 1 0).cfg.nCh ≤ 6 ∧
    (running 1 0).table.length = (running 1 0).cfg.nCh + 1 ∧ (running 1 0).table[1]? = some ⟨9, true, 11, 87⟩ ∧
    (11 : Byte).toNat ≤ 254 ∧ 0 < slotTicks 11 87) ∧
    ∃ s : State, SlotBegins s ∧ s.cfg.nCh ≤ 6 ∧ s.table.length = s.cfg.nCh + 1 ∧ s.cur = 1 ∧
      s.table[1]? = some ⟨9, true, 0, 87⟩ ∧ slotTicks 0 87 = 256 := by
  unfold SlotBegins
  exact ⟨by decide, { running 1 0 with table := (running 1 0).table.set 1 ⟨9, true, 0, 87⟩ }, by decide⟩
theorem witness_PulseWidthOnThePin : SlotBegins (running 1 0) ∧ (running 1 0).cfg = Config.default ∧
    (running 1 0).table.length = 5 ∧ 1 ≤ (running 1 0).cur.toNat ∧
    (running 1 0).table[1]? = some ⟨9, true, 11, 87⟩ ∧ ((11, 87) : Byte × Byte) = enc Config.default 1500 ∧
    (running 1 0).pinLevel 9 = .driven .high := by
  unfold SlotBegins
  decide
theorem witness_FrameDuration : SlotBegins (running 0 0) ∧ (running 0 0).cfg.nCh ≤ 6 ∧
    (running 0 0).table.length = (running 0 0).cfg.nCh + 1 ∧ (running 0 0).cur = 0 ∧
    1 < frameTicks (running 0 0).table ∧ ∀ sl ∈ (running 0 0).table, sl.tickBlocks.toNat ≤ 254 := by
  unfold SlotBegins
  decide
/-- The first ATTACH while the scheduler stands at slot 0: a state with a CONSTRUCT done and a turn to take. -/
theorem witness_FirstFrame : ∃ s : State, Inv s ∧ chanOk s.cfg 1 = true ∧ pinOk s.cfg 9 = true ∧ s.inFlight = none ∧
    s.started = false ∧ s.cur = 0 ∧ s.iter = 0 := by
  have h := running_meets_inv 0 0 (by decide) (by decide)
  refine ⟨{ running 0 0 with started := false, tmrOn := false, ovie := false }, ?_, by decide⟩
  exact ⟨h.1, h.2, h.3, h.4, h.5, h.6, h.7, h.8, fun h => (by cases h), fun h => (by cases h), fun h => (by cases h),
    fun _ _ _ _ h => (by cases h)⟩
theorem witness_RotationNeverStalls : Inv (running 4 254) ∧ (running 4 254).tmrOn = true ∧
    (running 4 254).ovie = true ∧ (running 4 254).ovfPend = false :=
  ⟨running_meets_inv 4 254 (by decide) (by decide), by decide⟩
theorem witness_TornWriteUs : State.reset.cfg = Config.default ∧ chanOk State.reset.cfg 1 = true ∧
    State.reset.inFlight = none ∧ State.reset.table[1]? = some ⟨0, false, 11, 87⟩ ∧
    (87 : Byte) = (enc Config.default 1500).2 := by decide
/-- Slot 1 under way; the next slot inactive, and active on another pin. -/
theorem witness_DetachMidPulseLeavesThePinHigh : ConfigValid (running 1 11).cfg ∧ chanOk (running 1 11).cfg 1 = true ∧
    (running 1 11).inFlight = none ∧ (running 1 11).table.length = (running 1 11).cfg.nCh + 1 ∧
    (running 1 11).table[1]? = some ⟨9, true, 11, 87⟩ ∧ (running 1 11).cur.toNat = 1 ∧
    (running 1 11).pinLevel 9 = .driven .high ∧ (11 : Byte) < 11 + 1 ∧
    ∃ s : State, s.cfg = (running 1 11).cfg ∧ s.inFlight = none ∧ s.table.length = s.cfg.nCh + 1 ∧
      s.table[1]? = some ⟨9, true, 11, 87⟩ ∧ s.cur.toNat = 1 ∧ s.iter = 11 ∧ s.pinLevel 9 = .driven .high ∧
      s.slot (nextSlot s.cfg 1) = .ok ⟨3, true, 11, 87⟩ :=
  ⟨by decide, by decide, by decide, by decide, by decide, by decide, by decide, by decide,
   { running 1 11 with table := (running 1 11).table.set 2 ⟨3, true, 11, 87⟩ }, by decide⟩
/-- R192's example: 1000 us written over 1500 us at `iter` = 9. -/
theorem witness_ShorterWidthEndsTheSlotAtOnce :
    ∃ s : State, Inv s ∧ s.table[s.cur.toNat]? = some ⟨9, true, 11, 87⟩ ∧ (11 : Byte) ≤ s.iter :=
  ⟨running 1 254, running_meets_inv 1 254 (by decide) (by decide), by decide⟩

end Sys2Proof.Tests
end

/-! PROOFS. The machine's invariant `Inv`, operation by operation, and obligation O42: every step keeps it. An operation
that leaves a clause's fields alone keeps the clause by definition, so each lemma names only the clauses it moves. -/

namespace Sys2Proof.Machine

/-! ### What the encoder gives the table (R10, R26) -/

/-- The blocks of an encoded width stay below 255, so that `iter` can pass them without a wrap (R10, R115). -/
theorem enc_blocks_le {c : Config} (hc : ConfigValid c) (w : Int) : (enc c w).1.toNat ≤ 254 := by
  obtain ⟨-, ⟨-, hmin, hmax, -⟩, hblocks, -⟩ := hc
  have hclamp : clampUs c w ≤ c.maxPulseUs := by
    unfold clampUs
    split
    · omega
    · split <;> omega
  calc (enc c w).1.toNat ≤ adjustedUs c w / c.blockUs := by
        simpa [enc, blocksOf] using Nat.mod_le _ _
    _ ≤ (c.maxPulseUs - c.overheadUs) / c.blockUs := Nat.div_le_div_right (Nat.sub_le_sub_right hclamp _)
    _ ≤ 254 := hblocks

theorem resetSync_blocks_le {c : Config} (hc : ConfigValid c) : (Slot.resetSync c).tickBlocks.toNat ≤ 254 := by
  obtain ⟨-, -, -, ⟨-, hsync⟩, -⟩ := hc
  simp [Slot.resetSync]
  omega

theorem resetServo_ok (c : Config) : ServoSlotOk c (Slot.resetServo c) :=
  ⟨Nat.two_pow_pos _, ⟨_, rfl⟩, ⟨_, rfl⟩⟩

/-- Every slot the handler can read ends within the range of `iter` (R115). -/
theorem Inv.slot_blocks_le {s : State} (h : Inv s) {i : Nat} {sl : Slot} (hs : s.slot i = .ok sl) :
    sl.tickBlocks.toNat ≤ 254 := by
  obtain ⟨st, hst, rfl⟩ := State.slot_ok_iff.mp hs
  split
  next hi =>
    subst hi
    obtain rfl : st = Slot.resetSync s.cfg := Option.some.inj (hst.symm.trans h.sync_slot)
    exact resetSync_blocks_le h.cfg_valid
  next hi =>
    obtain ⟨-, ⟨w, hw⟩, -⟩ := h.servo_slots i st (by omega) hst
    rw [hw]
    exact enc_blocks_le h.cfg_valid w

/-! ### Reset (R39 to R42, R185) -/

theorem inv_resetWith {c : Config} (hc : ConfigValid c) : Inv (State.resetWith c) where
  cfg_valid := hc
  table_length := by simp [State.resetWith]
  sync_slot := rfl
  servo_slots := by
    intro i sl hi hsl
    obtain ⟨j, rfl⟩ := Nat.exists_eq_add_of_le' hi
    have hmem : sl ∈ List.replicate c.nCh (Slot.resetServo c) := List.mem_of_getElem? (i := j) hsl
    exact List.eq_of_mem_replicate hmem ▸ resetServo_ok c
  cur_range := Nat.zero_le _
  iter_range := Nat.zero_le _
  instCount_range := Nat.zero_le _
  pins_wf := rfl
  started_active := nofun
  ovie_on := nofun
  pend_enabled := nofun
  attach_active := nofun

section
variable {s : State} (h : Inv s)
include h

theorem Inv.resetStep : Inv s.resetStep := { inv_resetWith h.cfg_valid with }

/-! ### The ports and the environment's inputs -/

theorem Inv.clearPorts : Inv s.clearPorts := { h with }

theorem Inv.takeTurn : Inv s.takeTurn := by
  rw [State.takeTurn_frame]
  exact { h with }

theorem Inv.withCmdWords (ws : List Word) : Inv { s with cmdWords := ws } := { h with }

theorem Inv.answer (w : Word) : Inv (s.answer w) := { h with attach_active := nofun }

/-! ### The registers and the timer -/

/-- The count of constructed handles stays within `N_CH` (R31, R140). -/
theorem Inv.takeIndex : Inv (s.setInstCount (nextIndex s.cfg s.instCount).1) :=
  { h with
    instCount_range := by
      have hle := h.instCount_range
      have ⟨⟨_, h6⟩, _⟩ := h.cfg_valid
      show (nextIndex s.cfg s.instCount).1.toNat ≤ s.cfg.nCh
      unfold nextIndex
      split
      · simp [BitVec.toNat_add]; omega
      · exact hle }

theorem Inv.setStarted (ht : s.tmrOn = true) (ho : s.ovie = true) : Inv s.setStarted :=
  { h with started_active := fun _ => ⟨ht, ho⟩ }

theorem Inv.timerConfig : Inv s.timerConfig :=
  { h with
    started_active := fun hs => ⟨rfl, (h.started_active hs).2⟩
    ovie_on := fun _ => rfl
    attach_active := fun ch pin n acc hf => ⟨fun _ => rfl, (h.attach_active ch pin n acc hf).2⟩ }

theorem Inv.timerLoad (v : Byte) : Inv (s.timerLoad v) := { h with }

/-- Only a configured timer may have its interrupt enabled (R142, R168). -/
theorem Inv.ovfEnable (ht : s.tmrOn = true) : Inv s.ovfEnable :=
  { h with
    started_active := fun _ => ⟨ht, rfl⟩
    ovie_on := fun _ => ht
    pend_enabled := nofun
    attach_active := fun _ _ _ _ _ => ⟨fun _ => ht, fun _ => rfl⟩ }

theorem Inv.advanceNow : Inv s.advanceNow := { h with }

/-- A count pends an overflow only where the interrupt is enabled (R118, R169). -/
theorem Inv.countUp : Inv s.countUp := by
  unfold State.countUp
  split
  · refine { h with pend_enabled := fun hp => ?_ }
    rcases (Bool.or_eq_true _ _).mp hp with ho | hp
    · exact ho
    · exact h.pend_enabled hp
  · exact { h with }

/-! ### The pins and the table -/

theorem Inv.pinModeOutput (p : BitVec 7) : Inv (s.pinModeOutput p) :=
  { h with pins_wf := PinMap.wf_makeOutput h.pins_wf _ }

theorem Inv.driveSlot (sl : Slot) (l : Level) : Inv (s.driveSlot sl l) := by
  unfold State.driveSlot
  split
  · exact { h with pins_wf := PinMap.wf_drive h.pins_wf _ _ }
  · exact h

/-- A slot write keeps the invariant where it keeps a servo slot's values; slot 0 is protected (R22, R26). -/
theorem Inv.updateSlot {t : State} {i : Nat} {f : Slot → Slot}
    (hf : ∀ sl, ServoSlotOk s.cfg sl → ServoSlotOk s.cfg (f sl)) (hu : s.updateSlot i f = .ok t) : Inv t := by
  obtain ⟨hlen, -, hzero⟩ := State.updateSlot_table hu
  rcases State.updateSlot_ok_iff.mp hu with ⟨-, rfl⟩ | ⟨hi, st, hst, rfl⟩
  · exact h
  · refine { h with
      table_length := hlen.trans h.table_length
      sync_slot := hzero.trans h.sync_slot
      servo_slots := fun j sl hj hsl => ?_ }
    by_cases hij : j = i
    · subst hij
      obtain ⟨-, rfl⟩ : _ ∧ f st = sl := by simpa [List.getElem?_set] using hsl
      exact hf st (h.servo_slots j st hj hst)
    · exact h.servo_slots j sl hj (by simpa [List.getElem?_set_ne (Ne.symm hij)] using hsl)

/-! ### The handler (R110) -/

/-- The handler entered with a count that did not wrap. -/
theorem Inv.enterHandler (hi : (s.iter + 1).toNat ≤ 254) : Inv s.enterHandler :=
  { h with iter_range := hi, pend_enabled := nofun }

/-- The end of a slot with the cursor at `c`: `iter` starts again, whatever it has been counted to. -/
theorem Inv.leaveSlot {c : BitVec 3} (hc : c.toNat ≤ s.cfg.nCh) (old : Slot) (l : Level) :
    Inv (((s.enterHandler.driveSlot old l).setSequencer c 0).timerLoad 0) := by
  have hseq : Inv (s.enterHandler.setSequencer c 0) :=
    { h with cur_range := hc, iter_range := Nat.zero_le _, pend_enabled := nofun }
  have hcomm : (s.enterHandler.driveSlot old l).setSequencer c 0 =
      (s.enterHandler.setSequencer c 0).driveSlot old l := by
    unfold State.driveSlot
    split <;> rfl
  rw [hcomm]
  exact (hseq.driveSlot old l).timerLoad 0

theorem Inv.execOvf {t : State} (he : execOvf s = .next t) : Inv t := by
  obtain ⟨old, hold, ⟨heq, rfl⟩ | ⟨-, -, hbegin⟩ | ⟨hlt, rfl⟩⟩ := execOvf_next he
  · have hiter : (s.iter + 1).toNat ≤ 254 := heq ▸ h.slot_blocks_le hold
    exact (h.enterHandler hiter).timerLoad _
  · rcases State.beginSlot_ok hbegin with ⟨-, rfl⟩ | ⟨hcur, new, -, rfl⟩
    · exact h.leaveSlot (Nat.zero_le _) old .low
    · rw [State.driveSlot_frame] at hcur
      exact (h.leaveSlot hcur old .low).driveSlot new .high
  · have hiter : (s.iter + 1).toNat < old.tickBlocks.toNat := hlt
    have hle := h.slot_blocks_le hold
    exact h.enterHandler (by omega)

theorem Inv.exec_tick {t : State} (he : exec .tick s = .next t) : Inv t := by
  rw [execTick_eq] at he
  cases he
  split
  · exact h
  · split
    · exact h.advanceNow.countUp
    · exact h.advanceNow

end

/-! ### Micro-steps -/

/-- What a micro-step needs of the state it is taken in, so that it keeps the invariant: enabling the interrupt needs
the configured timer, starting needs both (R142), and a written field is of R26's values. -/
def MicroOp.Safe (s : State) : MicroOp → Prop
  | .ovfEnable => s.tmrOn = true
  | .setStarted => s.tmrOn = true ∧ s.ovie = true
  | .writePinId _ p => p.toNat < 2 ^ s.cfg.pinW
  | .writeTickBlocks _ v => ∃ w : Int, v = (enc s.cfg w).1
  | .writeRemainder _ v => ∃ w : Int, v = (enc s.cfg w).2
  | _ => True

theorem Inv.updateSlot_map {s t : State} (h : Inv s) {i : Nat} {f : Slot → Slot} {a v : Half}
    (hr : (s.updateSlot i f).map (·, a) = .ok (t, v))
    (hf : ∀ sl, ServoSlotOk s.cfg sl → ServoSlotOk s.cfg (f sl)) : Inv t := by
  obtain ⟨u, hu, he⟩ := except_map_ok hr
  cases he
  exact h.updateSlot hf hu

theorem Inv.microStep {s t : State} (h : Inv s) {acc v : Half} {op : MicroOp} (hsafe : op.Safe s)
    (hr : MicroOp.run s acc op = .ok (t, v)) : Inv t := by
  cases op with
  | takeIndex => cases hr; exact h.takeIndex
  | timerConfig => cases hr; exact h.timerConfig
  | timerLoad b => cases hr; exact h.timerLoad b
  | ovfEnable => cases hr; exact h.ovfEnable hsafe
  | setStarted => cases hr; exact h.setStarted hsafe.1 hsafe.2
  | pinModeOutput p => cases hr; exact h.pinModeOutput p
  | writePinId i p => exact h.updateSlot_map hr fun _ ⟨_, hb, hrem⟩ => ⟨hsafe, hb, hrem⟩
  | writePinActive i b => exact h.updateSlot_map hr fun _ hsl => hsl
  | writeTickBlocks i b => exact h.updateSlot_map hr fun _ ⟨hp, _, hrem⟩ => ⟨hp, hsafe, hrem⟩
  | writeRemainder i b => exact h.updateSlot_map hr fun _ ⟨hp, hb, _⟩ => ⟨hp, hb, hsafe⟩
  | readPinActive i => exact MicroOp.run_read hr (by simp) ▸ h
  | readTickBlocks i => exact MicroOp.run_read hr (by simp) ▸ h
  | readRemainder i => exact MicroOp.run_read hr (by simp) ▸ h

/-! ### Commands -/

/-- The state shows what the micro-steps of command `i` before its `n`-th have activated (R142): past ATTACH's first the
timer is configured, past its third the interrupt is enabled. -/
def ActivatedBy (s : State) : Instr → Nat → Prop
  | .attach _ _, n => (1 ≤ n → s.tmrOn = true) ∧ (3 ≤ n → s.ovie = true)
  | _, _ => True

theorem Inv.activatedBy {s : State} (h : Inv s) {f : InFlight} (hf : s.inFlight = some f) :
    ActivatedBy s f.cmd f.next := by
  obtain ⟨cmd, n, acc⟩ := f
  cases cmd with
  | attach ch pin => exact h.attach_active ch pin n acc hf
  | _ => trivial

theorem Inv.setInFlight {s : State} (h : Inv s) {i : Instr} {n : Nat} (ha : ActivatedBy s i n) (acc : Half) :
    Inv (s.setInFlight i n acc) :=
  { h with attach_active := fun ch pin m acc' hf => by cases hf; exact ha }

theorem Inv.afterMicroStep {s : State} (h : Inv s) {i : Instr} {n : Nat} (ha : ActivatedBy s i n) (total : Nat)
    (acc : Half) : Inv (s.afterMicroStep i n total acc) := by
  rcases s.afterMicroStep_cases i n total acc with ⟨-, he⟩ | ⟨-, he⟩
  · exact he ▸ h.setInFlight ha acc
  · exact he ▸ h.answer _

/-- Wherever a command stands, its past micro-steps have activated what they activate. -/
theorem Inv.activatedBy_position {s : State} (h : Inv s) {i : Instr} {first k : Nat} {acc0 acc : Half}
    (hfirst : ActivatedBy s i first) (hp : s.position i first acc0 = some (k, acc)) : ActivatedBy s i k := by
  unfold State.position at hp
  split at hp
  · cases hp; exact hfirst
  next f hf =>
    split at hp
    next hcmd => cases hp; exact hcmd ▸ h.activatedBy hf
    · cases hp

/-- A command keeps the invariant where each of its micro-steps is safe after the ones before it, and activates what the
next ones count on. -/
theorem Inv.perform {s t : State} (h : Inv s) {i : Instr} {prog : List MicroOp} {first : Nat} {acc0 : Half}
    (hfirst : ActivatedBy s i first)
    (hprog : ∀ k op, i.wellFormed s.cfg = true → ActivatedBy s i k → prog[k]? = some op →
      op.Safe s ∧ ∀ acc u v, MicroOp.run s acc op = .ok (u, v) → ActivatedBy u i (k + 1))
    (he : s.perform i prog first acc0 = .next t) : Inv t := by
  obtain ⟨k, acc, hpos, ⟨-, rfl⟩ | ⟨-, -, rfl⟩ | ⟨hwf, op, u, v, hop, hr, rfl⟩⟩ := State.perform_next he
  · exact h.answer _
  · exact h.answer _
  · obtain ⟨hsafe, hact⟩ := hprog k op hwf (h.activatedBy_position hfirst hpos) hop
    exact (h.microStep hsafe hr).afterMicroStep (hact acc u v hr) _ _

/-- The commands that activate nothing: it is enough that every micro-step is safe. -/
theorem Inv.perform_of_safe {s t : State} (h : Inv s) {i : Instr} {prog : List MicroOp} {first : Nat} {acc0 : Half}
    (he : s.perform i prog first acc0 = .next t) (hprog : ∀ op ∈ prog, op.Safe s)
    (hi : ∀ u n, ActivatedBy u i n) : Inv t :=
  h.perform (hi s first)
    (fun _ op _ _ hop => ⟨hprog op (List.mem_of_getElem? hop), fun _ u _ _ => hi u _⟩) he

theorem writeUsSteps_safe (s : State) (ch : BitVec 4) (width : Half) :
    ∀ op ∈ writeUsSteps s.cfg ch width, op.Safe s := by
  have hblocks (i : Nat) : (MicroOp.writeTickBlocks i (encOperand s.cfg width).1).Safe s := ⟨_, rfl⟩
  have hrem (i : Nat) : (MicroOp.writeRemainder i (encOperand s.cfg width).2).Safe s := ⟨_, rfl⟩
  unfold writeUsSteps
  split
  · simp
  · split <;> simp [hblocks, hrem]

theorem readUsSteps_safe (s : State) (ch : BitVec 4) : ∀ op ∈ readUsSteps ch, op.Safe s := by
  unfold readUsSteps
  split <;> simp [MicroOp.Safe]

theorem constructSteps_safe (s : State) : ∀ op ∈ constructSteps, op.Safe s := by
  simp [constructSteps, MicroOp.Safe]

theorem detachSteps_safe (s : State) (ch : BitVec 4) : ∀ op ∈ detachSteps ch, op.Safe s := by
  unfold detachSteps
  split <;> simp [MicroOp.Safe]

theorem attachedSteps_safe (s : State) (ch : BitVec 4) : ∀ op ∈ attachedSteps ch, op.Safe s := by
  unfold attachedSteps
  split <;> simp [MicroOp.Safe]

/-! ### ATTACH (R141, R142) -/

theorem bindSteps_safe {s : State} (ch : BitVec 4) {pin : BitVec 7} (hpin : pin.toNat < 2 ^ s.cfg.pinW) :
    ∀ op ∈ bindSteps s.cfg ch pin, op.Safe s := by
  unfold bindSteps
  split
  · simp
  · split <;> simpa [MicroOp.Safe] using hpin

/-- Each micro-step of ATTACH finds what it needs in what the ones before it have set. -/
theorem attachSteps_safe {s : State} {ch : BitVec 4} {pin : BitVec 7} (hpin : pin.toNat < 2 ^ s.cfg.pinW) {k : Nat}
    {op : MicroOp} (ha : ActivatedBy s (.attach ch pin) k) (hop : (attachSteps s.cfg ch pin)[k]? = some op) :
    op.Safe s := by
  obtain ⟨htmr, hovie⟩ := ha
  match k with
  | 0 => cases hop; trivial
  | 1 => cases hop; trivial
  | 2 => cases hop; exact htmr (by omega)
  | 3 => cases hop; exact ⟨htmr (by omega), hovie (by omega)⟩
  | n + 4 => exact bindSteps_safe ch hpin op (List.mem_of_getElem? (i := n) hop)

/-- Each micro-step of ATTACH adds what it is to set, and undoes nothing. -/
theorem attachSteps_activate {s t : State} {c : Config} {ch : BitVec 4} {pin : BitVec 7} {k : Nat} {op : MicroOp}
    {acc v : Half} (ha : ActivatedBy s (.attach ch pin) k) (hop : (attachSteps c ch pin)[k]? = some op)
    (hr : MicroOp.run s acc op = .ok (t, v)) : ActivatedBy t (.attach ch pin) (k + 1) := by
  obtain ⟨htmr, hovie⟩ := ha
  obtain ⟨-, htmr', hovie', -⟩ := MicroOp.run_effects hr
  match k with
  | 0 => cases hop; cases hr; exact ⟨fun _ => rfl, by omega⟩
  | 1 => exact ⟨fun _ => htmr' (htmr (by omega)), by omega⟩
  | 2 => cases hop; cases hr; exact ⟨fun _ => htmr (by omega), fun _ => rfl⟩
  | n + 3 => exact ⟨fun _ => htmr' (htmr (by omega)), fun _ => hovie' (hovie (by omega))⟩

/-- A new ATTACH that passes activation over does so in a started block, which has it behind it. -/
theorem Inv.activatedBy_attachFirst {s : State} (h : Inv s) (ch : BitVec 4) (pin : BitVec 7) :
    ActivatedBy s (.attach ch pin) (attachFirst s) := by
  unfold attachFirst
  split
  next hs =>
    obtain ⟨htmr, hovie⟩ := h.started_active hs
    exact ⟨fun _ => htmr, fun _ => hovie⟩
  · exact ⟨by omega, by omega⟩

theorem Inv.execAttach {s t : State} (h : Inv s) {ch : BitVec 4} {pin : BitVec 7} (he : execAttach ch pin s = .next t) :
    Inv t := by
  refine h.perform (h.activatedBy_attachFirst ch pin) (fun k op hwf ha hop => ?_) he
  have hpin : pin.toNat < 2 ^ s.cfg.pinW := by
    simpa [pinOk] using (Bool.and_eq_true_iff.mp hwf).2
  exact ⟨attachSteps_safe hpin ha hop, fun _ _ _ hr => attachSteps_activate ha hop hr⟩

/-! ### The step -/

/-- Every operation keeps the invariant, a command at each of its micro-steps. -/
theorem Inv.exec {s t : State} (h : Inv s) {i : Instr} (he : exec i s = .next t) : Inv t := by
  cases i with
  | construct => exact h.perform_of_safe he (constructSteps_safe s) fun _ _ => trivial
  | attach ch pin => exact h.execAttach he
  | detach ch => exact h.perform_of_safe he (detachSteps_safe s ch) fun _ _ => trivial
  | attached ch => exact h.perform_of_safe he (attachedSteps_safe s ch) fun _ _ => trivial
  | writeUs ch width => exact h.perform_of_safe he (writeUsSteps_safe s ch width) fun _ _ => trivial
  | readUs ch => exact h.perform_of_safe he (readUsSteps_safe s ch) fun _ _ => trivial
  | ovf => exact h.execOvf he
  | tick => exact h.exec_tick he

theorem Inv.hostTurn {s t : State} (h : Inv s) (he : s.hostTurn = .next t) : Inv t := by
  rcases s.hostTurn_cases with ⟨f, -, hf⟩ | ⟨-, hidle | ⟨w, rest, -, ⟨i, -, hi⟩ | ⟨-, hill⟩⟩⟩
  · exact h.exec (hf ▸ he)
  · cases hidle.symm.trans he; exact h
  · exact (h.withCmdWords rest).exec (hi ▸ he)
  · cases hill.symm.trans he; exact (h.withCmdWords rest).answer _

theorem Inv.step {s t : State} (h : Inv s) (he : step s = .next t) : Inv t := by
  rcases step_cases s with ⟨-, hrst⟩ | ⟨-, -, hovf⟩ | ⟨-, -, htick⟩ | ⟨-, -, hhost⟩
  · cases hrst.symm.trans he; exact h.takeTurn.resetStep
  · exact h.clearPorts.exec (hovf ▸ he)
  · exact h.takeTurn.clearPorts.exec (htick ▸ he)
  · exact h.takeTurn.clearPorts.hostTurn (hhost ▸ he)

end Sys2Proof.Machine

/-- Settles O42: every operation keeps `Inv` from every state that meets it (`Inv.exec`), and a step is a reset or an
operation, whoever moves (`step_cases`). -/
theorem stepKeepsTheInvariant : Obligations.StepKeepsTheInvariant :=
  fun _ _ h he => h.step he


/-! SUPPORT. The frame of a step: what the events, a command's micro-step and a whole step change, and what they
leave alone (spec/10_state.md R20 to R43). A step that is no reset is an operation, or no operation at all, from a state
that differs from the one before in its inputs and ports alone (`step_next`); so what every operation does, every step
does. -/

namespace Sys2Proof.Machine

/-! ### Reset (R39 to R42) -/

theorem configValid_default : ConfigValid Config.default := by decide

/-- The servo slots of the reset table, all the same (R40). -/
theorem resetWith_servo {c : Config} {i : Nat} (h1 : 1 ≤ i) (hi : i ≤ c.nCh) :
    (State.resetWith c).table[i]? = some (Slot.resetServo c) := by
  obtain ⟨j, rfl⟩ := Nat.exists_eq_add_of_le' h1
  exact List.getElem?_replicate_of_lt (by omega)

/-- No slot is active after reset (R40). -/
theorem resetWith_inactive {c : Config} {i : Nat} {sl : Slot} (h : (State.resetWith c).table[i]? = some sl) :
    sl.pinActive = false := by
  cases i with
  | zero => cases h; rfl
  | succ j =>
    have hmem : sl ∈ List.replicate c.nCh (Slot.resetServo c) := List.mem_of_getElem? (i := j) h
    exact List.eq_of_mem_replicate hmem ▸ rfl

theorem inFlightOk_of_none {s : State} (h : s.inFlight = none) : InFlightOk s := by
  simp [InFlightOk, h]

theorem inFlightOk_resetWith (c : Config) : InFlightOk (State.resetWith c) := inFlightOk_of_none rfl

theorem pinsMadeOutput_resetWith {c : Config} (hc : c.writeOrder = .byRule) : PinsMadeOutput (State.resetWith c) where
  by_rule := hc
  active_output := fun _ _ _ hsl hact => absurd hact (by simp [resetWith_inactive hsl])
  attach_output := nofun
  attach_named := nofun

/-! ### Driving a slot's pin (R117, R171) -/

section
variable (s : State) (sl : Slot) (l : Level)

@[simp] theorem State.driveSlot_table : (s.driveSlot sl l).table = s.table := by rw [State.driveSlot_frame]

@[simp] theorem State.driveSlot_cur : (s.driveSlot sl l).cur = s.cur := by rw [State.driveSlot_frame]

@[simp] theorem State.driveSlot_now : (s.driveSlot sl l).now = s.now := by rw [State.driveSlot_frame]

theorem State.pinMode_driveSlot (p : BitVec 7) : (s.driveSlot sl l).pinMode p = s.pinMode p := by
  unfold State.driveSlot
  split
  · exact s.pinMode_pinWrite sl.pinId p l
  · rfl

end

/-- A pin's level that changes is that of an active slot's own pin (R21). -/
theorem State.pinLevel_driveSlot {s : State} {sl : Slot} {l : Level} {p : BitVec 7}
    (h : (s.driveSlot sl l).pinLevel p ≠ s.pinLevel p) : sl.pinActive = true ∧ sl.pinId = p := by
  unfold State.driveSlot at h
  split at h
  next hact =>
    rw [State.pinLevel_pinWrite] at h
    exact ⟨hact, by_contra fun hne => h (if_neg (Ne.symm hne))⟩
  next => exact absurd rfl h

/-- A slot reads by the table alone. -/
theorem State.slot_congr {s t : State} (h : t.table = s.table) (i : Nat) : t.slot i = s.slot i := by
  simp [State.slot, h]

/-! ### The events (R54, R110, R118) -/

theorem exec_tick_frame {s t : State} (h : exec .tick s = .next t) :
    t = { s with now := t.now, cnt := t.cnt, ovfPend := t.ovfPend } := by
  rw [execTick_eq] at h
  cases h
  split
  · rfl
  · split
    · unfold State.countUp
      split <;> rfl
    · rfl

theorem State.beginSlot_frame {s t : State} (h : s.beginSlot = .ok t) :
    t = { s with cur := t.cur, iter := t.iter, pins := t.pins, trace := t.trace, reqs := t.reqs } := by
  rcases State.beginSlot_ok h with ⟨-, rfl⟩ | ⟨-, new, -, rfl⟩
  · rfl
  · rw [State.driveSlot_frame]

theorem execOvf_frame {s t : State} (h : execOvf s = .next t) :
    t = { s with cur := t.cur, iter := t.iter, cnt := t.cnt, ovfPend := false, pins := t.pins, trace := t.trace,
                 reqs := t.reqs } := by
  obtain ⟨old, -, ⟨-, rfl⟩ | ⟨-, -, hbegin⟩ | ⟨-, rfl⟩⟩ := execOvf_next h
  · rfl
  · rw [State.driveSlot_frame] at hbegin
    have hframe := State.beginSlot_frame hbegin
    rw [hframe]
    rfl
  · rfl

theorem execOvf_pinMode {s t : State} (h : execOvf s = .next t) (p : BitVec 7) : t.pinMode p = s.pinMode p := by
  obtain ⟨old, -, ⟨-, rfl⟩ | ⟨-, -, hbegin⟩ | ⟨-, rfl⟩⟩ := execOvf_next h
  · rfl
  · have hold : (s.enterHandler.driveSlot old .low).pinMode p = s.pinMode p := State.pinMode_driveSlot ..
    rcases State.beginSlot_ok hbegin with ⟨-, rfl⟩ | ⟨-, new, -, rfl⟩
    · exact hold
    · exact (State.pinMode_driveSlot ..).trans hold
  · rfl

/-- A handler run drives the pin of the slot that ends and the pin of the slot that begins, of each only if it is
active (R21, R117). -/
theorem execOvf_pinLevel {s t : State} (h : execOvf s = .next t) {p : BitVec 7} (hp : t.pinLevel p ≠ s.pinLevel p) :
    ∃ i sl, (i = s.cur.toNat ∨ i = t.cur.toNat) ∧ s.slot i = .ok sl ∧ sl.pinActive = true ∧ sl.pinId = p := by
  obtain ⟨old, hold, ⟨-, rfl⟩ | ⟨-, -, hbegin⟩ | ⟨-, rfl⟩⟩ := execOvf_next h
  · exact absurd rfl hp
  · by_cases hlow : (s.enterHandler.driveSlot old .low).pinLevel p = s.pinLevel p
    · rcases State.beginSlot_ok hbegin with ⟨-, rfl⟩ | ⟨-, new, hnew, rfl⟩
      · exact absurd hlow hp
      · rw [State.slot_congr (s := s) (by simp)] at hnew
        exact ⟨_, new, .inr (by simp), hnew, State.pinLevel_driveSlot fun hhigh => hp (hhigh.trans hlow)⟩
    · exact ⟨_, old, .inl rfl, hold, State.pinLevel_driveSlot hlow⟩
  · exact absurd rfl hp

/-! ### Commands -/

/-- What a command's step is: at most one micro-step, then the answer, or the record of the command in flight, which is
kept of a well-formed command only (R37, R74, R75). -/
theorem exec_command_next {i : Instr} (hc : i.isCommand = true) {s t : State} (h : exec i s = .next t) :
    ∃ u, (u = s ∨ ∃ op acc v, MicroOp.run s acc op = .ok (u, v)) ∧
      ((∃ w, t = u.answer w) ∨ (i.wellFormed s.cfg = true ∧ ∃ n acc, t = u.setInFlight i n acc)) := by
  obtain ⟨prog, first, acc0, hexec⟩ := exec_command hc s
  obtain ⟨k, acc, -, ⟨-, rfl⟩ | ⟨-, -, rfl⟩ | ⟨hwf, op, u, v, -, hr, rfl⟩⟩ := State.perform_next (hexec ▸ h)
  · exact ⟨s, .inl rfl, .inl ⟨_, rfl⟩⟩
  · exact ⟨s, .inl rfl, .inl ⟨_, rfl⟩⟩
  · refine ⟨u, .inr ⟨op, acc, v, hr⟩, ?_⟩
    rcases u.afterMicroStep_cases i (k + 1) prog.length v with ⟨-, he⟩ | ⟨-, he⟩
    · exact .inr ⟨hwf, _, _, he⟩
    · exact .inl ⟨_, he⟩

/-- No command drives a pin (R171). -/
theorem exec_command_pinLevel {i : Instr} (hc : i.isCommand = true) {s t : State} (h : exec i s = .next t)
    (p : BitVec 7) : t.pinLevel p = s.pinLevel p := by
  obtain ⟨u, hu, ht⟩ := exec_command_next hc h
  have hlevel : u.pinLevel p = s.pinLevel p := by
    rcases hu with rfl | ⟨op, acc, v, hr⟩
    · rfl
    · obtain ⟨-, -, -, -, -, -, -, -, -, -, -, -, hpins⟩ := MicroOp.run_frame hr
      exact hpins p
  rcases ht with ⟨w, rfl⟩ | ⟨-, n, acc, rfl⟩ <;> exact hlevel

theorem exec_command_inFlightOk {i : Instr} (hc : i.isCommand = true) {s t : State} (h : exec i s = .next t) :
    InFlightOk t := by
  obtain ⟨u, hu, ⟨w, rfl⟩ | ⟨hwf, n, acc, rfl⟩⟩ := exec_command_next hc h
  · exact inFlightOk_of_none rfl
  · have hcfg : u.cfg = s.cfg := by
      rcases hu with rfl | ⟨op, acc, v, hr⟩
      · rfl
      · exact (MicroOp.run_frame hr).1
    rintro f ⟨⟩
    exact ⟨hc, hcfg.symm ▸ hwf⟩

/-! ### What stays on (R31, R32, R43) -/

/-- From `s` to `t` `instCount` does not fall, and what is started or enabled stays so. -/
structure KeepsOn (s t : State) : Prop where
  instCount : s.instCount.toNat ≤ t.instCount.toNat
  started : s.started = true → t.started = true
  tmrOn : s.tmrOn = true → t.tmrOn = true
  ovie : s.ovie = true → t.ovie = true

theorem KeepsOn.refl (s : State) : KeepsOn s s := ⟨le_rfl, id, id, id⟩

theorem MicroOp.run_keepsOn {s t : State} (h6 : s.cfg.nCh ≤ 6) {acc v : Half} {op : MicroOp}
    (h : MicroOp.run s acc op = .ok (t, v)) : KeepsOn s t := by
  obtain ⟨hstarted, htmr, hovie, hcount, -, -⟩ := MicroOp.run_effects h
  exact ⟨hcount.resolve_right (by omega), hstarted, htmr, hovie⟩

theorem exec_keepsOn {s t : State} (h6 : s.cfg.nCh ≤ 6) {i : Instr} (h : exec i s = .next t) : KeepsOn s t := by
  have command (hc : i.isCommand = true) : KeepsOn s t := by
    obtain ⟨u, hu, ht⟩ := exec_command_next hc h
    have hkeeps : KeepsOn s u := by
      rcases hu with rfl | ⟨op, acc, v, hr⟩
      · exact .refl u
      · exact MicroOp.run_keepsOn h6 hr
    rcases ht with ⟨w, rfl⟩ | ⟨-, n, acc, rfl⟩ <;> exact { hkeeps with }
  cases i with
  | ovf => rw [execOvf_frame h]; exact { KeepsOn.refl s with }
  | tick => rw [exec_tick_frame h]; exact { KeepsOn.refl s with }
  | _ => exact command rfl

/-! ### What the trace records (R38, R203) -/

/-- From `s` to `t` the request ports and the trace grow by the same pin requests, all issued at time `now`. -/
def Records (now : Nat) (s t : State) : Prop :=
  ∃ l, t.reqs = s.reqs ++ l ∧ t.trace = s.trace ++ (pinRequests l).map fun r => (now, r)

theorem Records.of_eq {now : Nat} {s t : State} (hr : t.reqs = s.reqs) (ht : t.trace = s.trace) : Records now s t :=
  ⟨[], by simpa using hr, by simpa [pinRequests] using ht⟩

theorem Records.trans {now : Nat} {s t u : State} : Records now s t → Records now t u → Records now s u := by
  rintro ⟨l, hreqs, htrace⟩ ⟨l', hreqs', htrace'⟩
  exact ⟨l ++ l', by simp [hreqs', hreqs], by simp [htrace', htrace, pinRequests]⟩

theorem records_timerLoad (now : Nat) (s : State) (v : Byte) : Records now s (s.timerLoad v) :=
  ⟨[.tmr (.load v)], rfl, by simp [pinRequests]⟩

theorem records_driveSlot (s : State) (sl : Slot) (l : Level) : Records s.now s (s.driveSlot sl l) := by
  unfold State.driveSlot
  split
  · exact ⟨[.pin (.write sl.pinId l)], rfl, rfl⟩
  · exact .of_eq rfl rfl

theorem State.beginSlot_records {s t : State} (h : s.beginSlot = .ok t) : Records s.now s t := by
  rcases State.beginSlot_ok h with ⟨-, rfl⟩ | ⟨-, new, -, rfl⟩
  · exact .of_eq rfl rfl
  · exact records_driveSlot s new .high

theorem execOvf_records {s t : State} (h : execOvf s = .next t) : Records s.now s t := by
  have henter : Records s.now s s.enterHandler := .of_eq rfl rfl
  obtain ⟨old, -, ⟨-, rfl⟩ | ⟨-, -, hbegin⟩ | ⟨-, rfl⟩⟩ := execOvf_next h
  · exact henter.trans (records_timerLoad ..)
  · have hlow : Records s.now s (s.enterHandler.driveSlot old .low) := henter.trans (records_driveSlot ..)
    have hend : Records s.now s (((s.enterHandler.driveSlot old .low).setSequencer (s.cur + 1) 0).timerLoad 0) :=
      (hlow.trans (.of_eq rfl rfl)).trans (records_timerLoad ..)
    have hnew := State.beginSlot_records hbegin
    simp only [State.timerLoad_now, State.setSequencer_now, State.driveSlot_now, State.enterHandler_now] at hnew
    exact hend.trans hnew
  · exact henter

theorem exec_records {s t : State} {i : Instr} (h : exec i s = .next t) : Records s.now s t := by
  have command (hc : i.isCommand = true) : Records s.now s t := by
    obtain ⟨u, hu, ht⟩ := exec_command_next hc h
    have hrecords : Records s.now s u := by
      rcases hu with rfl | ⟨op, acc, v, hr⟩
      · exact .of_eq rfl rfl
      · obtain ⟨-, -, -, -, hrec, -⟩ := MicroOp.run_effects hr
        exact hrec
    rcases ht with ⟨w, rfl⟩ | ⟨-, n, acc, rfl⟩ <;> exact hrecords.trans (.of_eq rfl rfl)
  cases i with
  | ovf => exact execOvf_records h
  | tick => rw [exec_tick_frame h]; exact .of_eq rfl rfl
  | _ => exact command rfl

/-! ### The step (R58, R164, R165) -/

/-- `s` with the output ports cleared and other inputs: where a step's operation starts from. -/
def State.opStart (s : State) (ws : List Word) (ts : List Turn) (n : Nat) : State :=
  { s with rsp := none, reqs := [], cmdWords := ws, turns := ts, turnCount := n }

theorem State.takeTurn_clearPorts (s : State) :
    s.takeTurn.clearPorts = s.opStart s.cmdWords s.takeTurn.turns s.takeTurn.turnCount := by
  rw [State.takeTurn_frame]
  rfl

@[simp] theorem State.takeTurn_inFlight (s : State) : s.takeTurn.inFlight = s.inFlight := by rw [State.takeTurn_frame]

theorem State.hostTurn_inFlight {s : State} {f : InFlight} (h : s.inFlight = some f) : s.hostTurn = exec f.cmd s := by
  simp [State.hostTurn, h]

/-- What a host's turn that answers is: nothing, the answer to a reserved word, or an operation, which is a command that
has just been decoded or what is in flight. -/
theorem State.hostTurn_next {s t : State} (h : s.hostTurn = .next t) :
    ∃ ws, t = s ∨ t = State.respondIll { s with cmdWords := ws } ∨
      ∃ i, exec i { s with cmdWords := ws } = .next t ∧ (i.isCommand = true ∨ ∃ f, s.inFlight = some f ∧ f.cmd = i) := by
  rcases s.hostTurn_cases with ⟨f, hf, hgo⟩ | ⟨-, hidle | ⟨w, ws, -, ⟨i, hd, hnew⟩ | ⟨-, hill⟩⟩⟩
  · exact ⟨s.cmdWords, .inr (.inr ⟨f.cmd, hgo ▸ h, .inr ⟨f, hf, rfl⟩⟩)⟩
  · cases hidle.symm.trans h
    exact ⟨[], .inl rfl⟩
  · exact ⟨ws, .inr (.inr ⟨i, hnew ▸ h, .inl (decode_isCommand hd)⟩)⟩
  · cases hill.symm.trans h
    exact ⟨ws, .inr (.inl rfl)⟩

/-- What a step that is no reset and answers is, from a state that differs from `s` in inputs and ports alone: nothing,
the answer to a reserved word, or an operation. That is the handler if an overflow is pending, a TICK, a command, or
what is in flight. -/
theorem step_next {s t : State} (h : step s = .next t) (hrst : s.nextTurn ≠ .rst) :
    ∃ ws ts n, t = s.opStart ws ts n ∨ t = (s.opStart ws ts n).respondIll ∨
      ∃ i, exec i (s.opStart ws ts n) = .next t ∧
        ((i = .ovf ∧ s.ovfPend = true) ∨ i = .tick ∨ i.isCommand = true ∨ ∃ f, s.inFlight = some f ∧ f.cmd = i) := by
  rcases step_cases s with ⟨hr, -⟩ | ⟨-, hp, hovf⟩ | ⟨-, -, htick⟩ | ⟨-, -, hhost⟩
  · exact absurd hr hrst
  · exact ⟨s.cmdWords, s.turns, s.turnCount, .inr (.inr ⟨.ovf, hovf ▸ h, .inl ⟨rfl, hp⟩⟩)⟩
  · rw [htick, State.takeTurn_clearPorts] at h
    exact ⟨_, _, _, .inr (.inr ⟨.tick, h, .inr (.inl rfl)⟩)⟩
  · rw [hhost, State.takeTurn_clearPorts] at h
    obtain ⟨ws, rfl | hill | ⟨i, hi, hcmd⟩⟩ := State.hostTurn_next h
    · exact ⟨_, _, _, .inl rfl⟩
    · exact ⟨ws, _, _, .inr (.inl hill)⟩
    · exact ⟨ws, _, _, .inr (.inr ⟨i, hi, .inr (.inr hcmd)⟩)⟩

/-- Where what is in flight is a command, the step's operation is the handler, a TICK or a command. -/
theorem step_next_of_inFlightOk {s t : State} (hok : InFlightOk s) (h : step s = .next t) (hrst : s.nextTurn ≠ .rst) :
    ∃ ws ts n, t = s.opStart ws ts n ∨ t = (s.opStart ws ts n).respondIll ∨
      (s.ovfPend = true ∧ execOvf (s.opStart ws ts n) = .next t) ∨ exec .tick (s.opStart ws ts n) = .next t ∨
      ∃ i, i.isCommand = true ∧ exec i (s.opStart ws ts n) = .next t := by
  obtain ⟨ws, ts, n, hidle | hill | ⟨i, hi, ⟨rfl, hp⟩ | rfl | hc | ⟨f, hf, rfl⟩⟩⟩ := step_next h hrst
  · exact ⟨ws, ts, n, .inl hidle⟩
  · exact ⟨ws, ts, n, .inr (.inl hill)⟩
  · exact ⟨ws, ts, n, .inr (.inr (.inl ⟨hp, hi⟩))⟩
  · exact ⟨ws, ts, n, .inr (.inr (.inr (.inl hi)))⟩
  · exact ⟨ws, ts, n, .inr (.inr (.inr (.inr ⟨i, hc, hi⟩)))⟩
  · exact ⟨ws, ts, n, .inr (.inr (.inr (.inr ⟨f.cmd, (hok f hf).1, hi⟩)))⟩

theorem InFlightOk.step {s t : State} (hok : InFlightOk s) (h : step s = .next t) : InFlightOk t := by
  by_cases hrst : s.nextTurn = .rst
  · rcases step_cases s with ⟨-, hr⟩ | ⟨hr, -⟩ | ⟨hr, -⟩ | ⟨hr, -⟩
    · cases hr.symm.trans h
      exact inFlightOk_of_none rfl
    all_goals simp [hrst] at hr
  · obtain ⟨ws, ts, n, rfl | rfl | ⟨-, hovf⟩ | htick | ⟨i, hc, hi⟩⟩ := step_next_of_inFlightOk hok h hrst
    · exact hok
    · exact inFlightOk_of_none rfl
    · rw [execOvf_frame hovf]; exact hok
    · rw [exec_tick_frame htick]; exact hok
    · exact exec_command_inFlightOk hc hi

theorem step_keepsOn {s t : State} (h6 : s.cfg.nCh ≤ 6) (h : step s = .next t) (hrst : s.nextTurn ≠ .rst) :
    KeepsOn s t := by
  obtain ⟨ws, ts, n, rfl | rfl | ⟨i, hi, -⟩⟩ := step_next h hrst
  · exact { KeepsOn.refl s with }
  · exact { KeepsOn.refl s with }
  · exact { exec_keepsOn (s := s.opStart ws ts n) h6 hi with }

theorem step_pinLevel {s t : State} (hok : InFlightOk s) (h : step s = .next t) (hrst : s.nextTurn ≠ .rst)
    {p : BitVec 7} (hp : t.pinLevel p ≠ s.pinLevel p) :
    s.ovfPend = true ∧ ∃ i sl, s.slot i = .ok sl ∧ sl.pinActive = true ∧ sl.pinId = p := by
  obtain ⟨ws, ts, n, rfl | rfl | ⟨hpend, hovf⟩ | htick | ⟨i, hc, hi⟩⟩ := step_next_of_inFlightOk hok h hrst
  · exact absurd rfl hp
  · exact absurd rfl hp
  · obtain ⟨i, sl, -, hsl⟩ := execOvf_pinLevel hovf hp
    exact ⟨hpend, i, sl, hsl⟩
  · rw [exec_tick_frame htick] at hp
    exact absurd rfl hp
  · exact absurd (exec_command_pinLevel hc hi p) hp

theorem step_records {s t : State} (h : step s = .next t) (hrst : s.nextTurn ≠ .rst) :
    Records s.now s.clearPorts t := by
  obtain ⟨ws, ts, n, rfl | rfl | ⟨i, hi, -⟩⟩ := step_next h hrst
  · exact .of_eq rfl rfl
  · exact .of_eq rfl rfl
  · exact exec_records (s := s.opStart ws ts n) hi

end Sys2Proof.Machine

section

open Sys2Proof.Machine

/-- Settles O37: a TICK by its three cases, a handler run by R110's three cases, of which only a slot's end drives pins,
that of the slot it leaves and that of the slot it begins (`execOvf_pinLevel`). -/
theorem eventsFrame : Obligations.EventsFrame :=
  fun _ _ => ⟨exec_tick_frame, fun h => ⟨execOvf_frame h, execOvf_pinMode h, fun _ => execOvf_pinLevel h⟩⟩

/-- Settles O43: a command is kept in flight only where it is well formed (`exec_command_next`), and no event touches
what is in flight. -/
theorem stepKeepsACommandInFlight : Obligations.StepKeepsACommandInFlight :=
  fun _ _ hok h => hok.step h

/-- Settles O48: no micro-step clears an enable or lowers the count (`MicroOp.run_effects`), where the count of at most
six channels cannot wrap (R10). -/
theorem nothingIsTornDown : Obligations.NothingIsTornDown := by
  intro s t hinv h hrst
  obtain ⟨⟨-, h6⟩, -⟩ := hinv.cfg_valid
  obtain ⟨hcount, hstarted, htmr, hovie⟩ := step_keepsOn h6 h hrst
  exact ⟨hcount, hstarted, htmr, hovie⟩

/-- Settles O51: a TICK and a command leave every level (`exec_command_pinLevel`), and the handler runs only when it is
pending. -/
theorem onlyTheHandlerDrivesPins : Obligations.OnlyTheHandlerDrivesPins :=
  fun _ _ _ hok h hrst hp => step_pinLevel hok h hrst hp

/-- Settles O52: every operation appends the same pin requests to the port and to the trace (`exec_records`), and a step
begins with the port empty. -/
theorem traceRecordsThePinRequests : Obligations.TraceRecordsThePinRequests := by
  intro s t h hrst
  obtain ⟨l, hreqs, htrace⟩ := step_records h hrst
  have hl : t.reqs = l := by simpa using hreqs
  rw [hl]
  exact htrace

/-- Settles O8: the three moves of `State.arbitrate` other than a reset and a new command word. -/
theorem stepRunsTheAgentWhoseTurnItIs : Obligations.StepRunsTheAgentWhoseTurnItIs := by
  intro s
  rcases step_cases s with ⟨hturn, -⟩ | ⟨-, hpend, hovf⟩ | ⟨hturn, hpend, htick⟩ | ⟨hturn, hpend, hhost⟩
  · simp [hturn]
  · simp [hpend, hovf]
  · simp [hturn, hpend, htick]
  · have hgoes (f : InFlight) (hf : s.inFlight = some f) : step s = exec f.cmd s.takeTurn.clearPorts :=
      hhost.trans (State.hostTurn_inFlight (by simpa using hf))
    simpa [hturn, hpend] using hgoes

/-- Settles O10: the reset table for any parameters (`resetWith_servo`), and the values at the default ones by
evaluation. -/
theorem resetValues : Obligations.ResetValues := by
  refine ⟨fun c => ⟨by simp [State.resetWith], rfl, fun i h1 hi => resetWith_servo h1 hi⟩, rfl, ?_, ?_, ?_⟩
  · decide
  · decide
  · exact ⟨rfl, rfl, rfl, rfl, rfl, rfl, rfl, fun _ => ⟨rfl, rfl⟩, rfl, rfl, rfl⟩

/-- Settles O41: each invariant holds after reset for all parameters that it admits; the default ones are valid and have
the rules' write order. -/
theorem resetMeetsTheInvariants : Obligations.ResetMeetsTheInvariants :=
  ⟨inv_resetWith configValid_default, inFlightOk_resetWith _, pinsMadeOutput_resetWith rfl⟩

end

/-! SUPPORT. The serialised word (spec/20_memory.md R63), what a command's micro-step leaves unchanged, given its list
of micro-steps (R56, R98, R140, R145), that no operation writes slot 0 (R62), and how a new command word is taken (R58). -/

namespace Sys2Proof

/-- Serialising a word and putting its bytes together again gives the word (R63). -/
theorem wordOfBytes_bytesOfWord (w : Word) :
    wordOfBytes (w.extractLsb' 0 8) (w.extractLsb' 8 8) (w.extractLsb' 16 8) (w.extractLsb' 24 8) = w := by
  unfold wordOfBytes
  rw [BitVec.extractLsb'_append_extractLsb'_eq_extractLsb' (by rfl),
    BitVec.extractLsb'_append_extractLsb'_eq_extractLsb' (by rfl),
    BitVec.extractLsb'_append_extractLsb'_eq_extractLsb' (by rfl)]
  exact BitVec.extractLsb'_eq_self

end Sys2Proof

namespace Sys2Proof.Machine

/-! ### A command's micro-step, given its list of micro-steps -/

/-- The answer, or staying in flight, changes the response port and log and the command in flight only (R37, R74). -/
theorem State.afterMicroStep_frame (s : State) (i : Instr) (n total : Nat) (acc : Half) :
    s.afterMicroStep i n total acc =
      { s with rsp := (s.afterMicroStep i n total acc).rsp, responses := (s.afterMicroStep i n total acc).responses,
               inFlight := (s.afterMicroStep i n total acc).inFlight } := by
  unfold State.afterMicroStep
  split <;> rfl

/-- A command's step is at most one micro-step of its list; the rest of it is the response port and log and the command
in flight. -/
theorem State.perform_frame {s t : State} {i : Instr} {prog : List MicroOp} {first : Nat} {acc0 : Half}
    (h : s.perform i prog first acc0 = .next t) :
    ∃ u, (u = s ∨ ∃ op ∈ prog, ∃ acc v, MicroOp.run s acc op = .ok (u, v)) ∧
      t = { u with rsp := t.rsp, responses := t.responses, inFlight := t.inFlight } := by
  obtain ⟨k, acc, -, ⟨-, rfl⟩ | ⟨-, -, rfl⟩ | ⟨-, op, u, v, hop, hr, rfl⟩⟩ := State.perform_next h
  · exact ⟨s, .inl rfl, rfl⟩
  · exact ⟨s, .inl rfl, rfl⟩
  · exact ⟨u, .inr ⟨op, List.mem_of_getElem? hop, acc, v, hr⟩, State.afterMicroStep_frame ..⟩

/-- The micro-steps that read a slot's field (R56). -/
def MicroOp.Reads (op : MicroOp) : Prop :=
  (∃ i, op = .readPinActive i) ∨ (∃ i, op = .readTickBlocks i) ∨ (∃ i, op = .readRemainder i)

theorem attachedSteps_read (ch : BitVec 4) : ∀ op ∈ attachedSteps ch, op.Reads := by
  unfold attachedSteps
  split <;> simp [MicroOp.Reads]

theorem readUsSteps_read (ch : BitVec 4) : ∀ op ∈ readUsSteps ch, op.Reads := by
  unfold readUsSteps
  split <;> simp [MicroOp.Reads]

/-- A command whose micro-steps all read writes nothing but its response and its own record (R56). -/
theorem State.perform_frame_of_reads {s t : State} {i : Instr} {prog : List MicroOp} {first : Nat} {acc0 : Half}
    (hprog : ∀ op ∈ prog, op.Reads) (h : s.perform i prog first acc0 = .next t) :
    t = { s with rsp := t.rsp, responses := t.responses, inFlight := t.inFlight } := by
  obtain ⟨u, rfl | ⟨op, hop, acc, v, hr⟩, ht⟩ := State.perform_frame h
  · exact ht
  · obtain rfl : u = s := MicroOp.run_read hr (hprog op hop)
    exact ht

/-- CONSTRUCT's one micro-step writes `instCount` only (R140). -/
theorem exec_construct_frame {s t : State} (h : exec .construct s = .next t) :
    t = { s with instCount := t.instCount, rsp := t.rsp, responses := t.responses, inFlight := t.inFlight } := by
  obtain ⟨u, rfl | ⟨op, hop, acc, v, hr⟩, ht⟩ := State.perform_frame h
  · rw [ht]
  · obtain rfl : op = .takeIndex := List.mem_singleton.mp hop
    cases hr
    rw [ht]
    rfl

/-! ### Slot 0 (R22, R62) -/

theorem exec_slotZero {s t : State} {i : Instr} (h : exec i s = .next t) : t.table[0]? = s.table[0]? := by
  have command (hc : i.isCommand = true) : t.table[0]? = s.table[0]? := by
    obtain ⟨u, hu, ht⟩ := exec_command_next hc h
    have hslot : u.table[0]? = s.table[0]? := by
      rcases hu with rfl | ⟨op, acc, v, hr⟩
      · rfl
      · obtain ⟨-, -, -, -, -, -, -, -, -, -, hzero, -⟩ := MicroOp.run_frame hr
        exact hzero
    rcases ht with ⟨w, rfl⟩ | ⟨-, n, acc, rfl⟩ <;> exact hslot
  cases i with
  | ovf => rw [execOvf_frame h]
  | tick => rw [exec_tick_frame h]
  | _ => exact command rfl

/-! ### A new command word (R58, R72) -/

@[simp] theorem State.takeTurn_cfg (s : State) : s.takeTurn.cfg = s.cfg := by rw [State.takeTurn_frame]

@[simp] theorem State.takeTurn_cmdWords (s : State) : s.takeTurn.cmdWords = s.cmdWords := by rw [State.takeTurn_frame]

/-- With nothing in flight the host's turn takes the next word, and carries out what it decodes to. -/
theorem State.hostTurn_issue {s : State} {w : Word} {rest : List Word} {i : Instr} (hf : s.inFlight = none)
    (hw : s.cmdWords = w :: rest) (hd : decode s.cfg w = .ok i) : s.hostTurn = exec i { s with cmdWords := rest } := by
  simp [State.hostTurn, State.accept, hf, hw, hd]

end Sys2Proof.Machine

section

open Sys2Proof Sys2Proof.Machine

/-- Settles O5: `decodeBytes` takes four bytes off, and those of a serialised word are that word
(`wordOfBytes_bytesOfWord`). -/
theorem serialisedCommandsReadBack : Obligations.SerialisedCommandsReadBack := by
  intro c w rest
  show (decode c (wordOfBytes _ _ _ _)).map (·, rest) = (decode c w).map (·, rest)
  rw [wordOfBytes_bytesOfWord]

/-- Settles O38: every micro-step of ATTACHED and READ_US reads (`MicroOp.run_read`), and CONSTRUCT's one micro-step
writes `instCount`. -/
theorem readingCommandsFrame : Obligations.ReadingCommandsFrame := by
  intro s t ch
  refine ⟨?_, exec_construct_frame⟩
  rintro (hattached | hread)
  · exact State.perform_frame_of_reads (attachedSteps_read ch) hattached
  · exact State.perform_frame_of_reads (readUsSteps_read ch) hread

/-- Settles O47: no micro-step writes slot 0 (`MicroOp.run_frame`), the events write no slot, and a step that is no
reset is at most one operation (`step_next`). -/
theorem slotZeroIsNeverWritten : Obligations.SlotZeroIsNeverWritten := by
  intro s t h hrst
  obtain ⟨ws, ts, n, rfl | rfl | ⟨i, hi, -⟩⟩ := step_next h hrst
  · rfl
  · rfl
  · exact exec_slotZero (s := s.opStart ws ts n) hi

/-- Settles O7: with no overflow pending the host's turn is taken, and with nothing in flight it takes the word
(`State.hostTurn_issue`). -/
theorem stepRunsTheIssuedCommand : Obligations.StepRunsTheIssuedCommand := by
  intro s w rest i hturn hpend hf hw hd
  have hhost : step s = s.takeTurn.clearPorts.hostTurn := by simpa [hturn, hpend] using step_cases s
  rw [hhost]
  exact State.hostTurn_issue (by simpa using hf) (by simpa using hw) (by simpa using hd)

end

/-! SUPPORT. The round trip between operations and their codes (spec/30_encoding.md R71 to R73, R76), exactly which
words are reserved (R75), the fields of a response word (R74), and when an operation is not refused (R74, R189). -/

namespace Sys2Proof

/-! ### The round trip (R71 to R73, R76) -/

/-- A channel is in range exactly if the decoder's test lets it pass (R75). -/
theorem chanOk_iff_not_lt {c : Config} {ch : BitVec 4} : chanOk c ch = true ↔ ¬ c.nCh < ch.toNat :=
  decide_eq_true_iff.trans not_lt.symm

/-- For `PIN_W` up to 7 an operand below `2^PIN_W` is the widening of a legal pin identifier (R8, R73). -/
theorem setWidth_operand_pin {c : Config} (hc : c.pinW ≤ 7) {x : Half} (hx : x.toNat < 2 ^ c.pinW) :
    (x.setWidth 7).setWidth 16 = x ∧ pinOk c (x.setWidth 7) = true := by
  have h7 : x.toNat < 2 ^ 7 := hx.trans_le (Nat.pow_le_pow_right (by decide) hc)
  have hcut : (x.setWidth 7).toNat = x.toNat := by
    rw [BitVec.toNat_setWidth, Nat.mod_eq_of_lt h7]
  refine ⟨BitVec.eq_of_toNat_eq ?_, ?_⟩
  · rw [BitVec.toNat_setWidth, hcut, Nat.mod_eq_of_lt x.isLt]
  · rw [pinOk, hcut]
    exact decide_eq_true hx

theorem decodeCode_encode {c : Config} {i : Instr} (hw : i.wellFormed c = true) : decodeCode c (encode i) = .ok i := by
  cases i with
  | construct => simp [encode, decodeCode, decode, decodeConstruct, decodeNoOperand]
  | attach ch pin =>
    obtain ⟨hch, hpin⟩ := Bool.and_eq_true_iff.mp hw
    rw [chanOk_iff_not_lt] at hch
    have hoperand : pin.toNat % 65536 < 2 ^ c.pinW := (Nat.mod_le _ _).trans_lt (of_decide_eq_true hpin)
    simp [encode, decodeCode, decode, decodeAttach, hch, hoperand]
  | detach ch | attached ch | readUs ch =>
    have hch := chanOk_iff_not_lt.mp hw
    simp [encode, decodeCode, decode, decodeNoOperand, hch]
  | writeUs ch width =>
    have hch := chanOk_iff_not_lt.mp hw
    simp [encode, decodeCode, decode, hch]
  | ovf | tick => rfl

theorem decodeNoOperand_ok {o ch : BitVec 4} {x : Half} {i j : Instr}
    (h : decodeNoOperand (commandWord o ch x) i = .ok j) : x = 0 ∧ j = i := by
  rw [decodeNoOperand, operandField_commandWord] at h
  split at h
  next hx => cases h; exact ⟨hx, rfl⟩
  next => cases h

theorem decodeConstruct_ok {o ch : BitVec 4} {x : Half} {i : Instr}
    (h : decodeConstruct (commandWord o ch x) = .ok i) : ch = 0 ∧ x = 0 ∧ i = .construct := by
  rw [decodeConstruct, chanField_commandWord] at h
  split at h
  next hch => exact ⟨hch, decodeNoOperand_ok h⟩
  next => cases h

theorem decodeAttach_ok {c : Config} {o ch : BitVec 4} {x : Half} {i : Instr}
    (h : decodeAttach c (commandWord o ch x) = .ok i) : x.toNat < 2 ^ c.pinW ∧ i = .attach ch (x.setWidth 7) := by
  rw [decodeAttach, chanField_commandWord, operandField_commandWord] at h
  split at h
  next hx => cases h; exact ⟨hx, rfl⟩
  next => cases h

/-- A word that decodes has a zero `zero` field, so it is its other three fields, and each opcode's own test fixes what
its operation does not carry. -/
theorem encode_of_decode {c : Config} (hc : c.pinW ≤ 7) {w : Word} {i : Instr} (h : decode c w = .ok i) :
    encode i = .word w ∧ i.wellFormed c = true := by
  unfold decode at h
  split at h
  · cases h
  next hz =>
    obtain ⟨o, ch, x, rfl⟩ : ∃ o ch x, w = commandWord o ch x :=
      ⟨_, _, _, (commandWord_of_fields w (not_not.mp hz)).symm⟩
    rw [chanField_commandWord, opcodeField_commandWord, operandField_commandWord] at h
    split at h
    · cases h
    next hlt =>
      have hch := chanOk_iff_not_lt.mpr hlt
      split at h
      next ho =>
        obtain rfl : o = 1 := BitVec.eq_of_toNat_eq ho
        obtain ⟨rfl, rfl, rfl⟩ := decodeConstruct_ok h
        exact ⟨rfl, rfl⟩
      next ho =>
        obtain rfl : o = 2 := BitVec.eq_of_toNat_eq ho
        obtain ⟨hx, rfl⟩ := decodeAttach_ok h
        obtain ⟨hoperand, hpin⟩ := setWidth_operand_pin hc hx
        exact ⟨by rw [encode, hoperand], Bool.and_eq_true_iff.mpr ⟨hch, hpin⟩⟩
      next ho =>
        obtain rfl : o = 3 := BitVec.eq_of_toNat_eq ho
        obtain ⟨rfl, rfl⟩ := decodeNoOperand_ok h
        exact ⟨rfl, hch⟩
      next ho =>
        obtain rfl : o = 4 := BitVec.eq_of_toNat_eq ho
        obtain ⟨rfl, rfl⟩ := decodeNoOperand_ok h
        exact ⟨rfl, hch⟩
      next ho =>
        obtain rfl : o = 5 := BitVec.eq_of_toNat_eq ho
        cases h
        exact ⟨rfl, hch⟩
      next ho =>
        obtain rfl : o = 6 := BitVec.eq_of_toNat_eq ho
        obtain ⟨rfl, rfl⟩ := decodeNoOperand_ok h
        exact ⟨rfl, hch⟩
      · cases h

/-! ### The reserved words (R75) -/

theorem decodeNoOperand_error_iff {w : Word} {i : Instr} :
    (∃ e, decodeNoOperand w i = .error e) ↔ operandField w ≠ 0 := by
  unfold decodeNoOperand
  split
  next h => simp [h]
  next h => exact iff_of_true ⟨_, rfl⟩ h

theorem decodeConstruct_error_iff {w : Word} :
    (∃ e, decodeConstruct w = .error e) ↔ chanField w ≠ 0 ∨ operandField w ≠ 0 := by
  unfold decodeConstruct
  split
  next h => simp [decodeNoOperand_error_iff, h]
  next h => exact iff_of_true ⟨_, rfl⟩ (.inl h)

/-- `operand[15:k]` is 0 exactly if the operand is below `2^k` (R73). -/
theorem ushiftRight_eq_zero_iff_toNat_lt (x : Half) (k : Nat) : x >>> k = 0 ↔ x.toNat < 2 ^ k := by
  rw [← BitVec.toNat_inj, BitVec.toNat_ushiftRight, Nat.shiftRight_eq_div_pow]
  exact Nat.div_eq_zero_iff_lt (Nat.two_pow_pos k)

theorem decodeAttach_error_iff {c : Config} {w : Word} :
    (∃ e, decodeAttach c w = .error e) ↔ operandField w >>> c.pinW ≠ 0 := by
  rw [Ne, ushiftRight_eq_zero_iff_toNat_lt]
  unfold decodeAttach
  split <;> simp [*]

end Sys2Proof

namespace Sys2Proof.Machine

/-- Past the tests of the `zero` and `chan` fields each opcode leaves one ground of R75. -/
theorem decode_error_iff {c : Config} {w : Word} : (∃ e, decode c w = .error e) ↔ ReservedWord c w := by
  unfold decode ReservedWord
  split
  next hz => exact iff_of_true ⟨_, rfl⟩ (.inr (.inr (.inr (.inl hz))))
  next hz =>
    split
    next hch => simp [hch]
    next hch =>
      have hzero : zeroField w = 0 := not_not.mp hz
      split
      next ho => simp [ho, hch, hzero, decodeConstruct_error_iff]
      next ho => simp [ho, hch, hzero, decodeAttach_error_iff]
      next ho => simp [ho, hch, hzero, decodeNoOperand_error_iff]
      next ho => simp [ho, hch, hzero, decodeNoOperand_error_iff]
      next ho => simp [ho, hch, hzero]
      next ho => simp [ho, hch, hzero, decodeNoOperand_error_iff]
      next h1 h2 h3 h4 h5 h6 =>
        simp only [imp_false] at h1 h2 h3 h4 h5 h6
        have hreserved : (opcodeField w).toNat = 0 ∨ 7 ≤ (opcodeField w).toNat := by omega
        exact iff_of_true ⟨_, rfl⟩ (hreserved.imp_right .inl)

/-- With nothing in flight an ILL answer changes the response port and log only. -/
theorem State.respondIll_of_idle {s : State} (hf : s.inFlight = none) :
    s.respondIll = { s with rsp := some 0x80000000, responses := s.responses ++ [0x80000000] } := by
  have hill : responseIll = 0x80000000 := by decide
  simp [State.respondIll, State.answer, hill, hf]

/-- With nothing in flight the host's turn takes the next word, and answers ILL to a reserved one. -/
theorem State.hostTurn_reserved {s : State} {w : Word} {rest : List Word} (hf : s.inFlight = none)
    (hw : s.cmdWords = w :: rest) (hr : ReservedWord s.cfg w) :
    s.hostTurn = .next (State.respondIll { s with cmdWords := rest }) := by
  obtain ⟨e, he⟩ := decode_error_iff.mpr hr
  simp [State.hostTurn, State.accept, hf, hw, he]

/-! ### The fields of a response word (R74, R75) -/

theorem illBit_responseWord (v : Half) : illBit (responseWord v) = false := by
  rw [illBit, responseWord, BitVec.getLsbD_append, if_neg (by decide)]
  decide

theorem zeroBits_responseWord (v : Half) : (responseWord v).extractLsb' 16 15 = 0 := by
  rw [responseWord, BitVec.extractLsb'_append_eq_of_le (by decide)]
  decide

theorem valueField_responseWord (v : Half) : valueField (responseWord v) = v :=
  BitVec.extractLsb'_append_eq_right

/-! ### Refusals (R74, R189) -/

/-- Where nothing but the command itself is in flight, it is not refused. -/
theorem State.perform_ne_refused {s : State} {i : Instr} (hi : ∀ f, s.inFlight = some f → f.cmd = i)
    (prog : List MicroOp) (first : Nat) (acc0 : Half) (r : Refusal) : s.perform i prog first acc0 ≠ .refused r := by
  obtain ⟨k, acc, hp⟩ : ∃ k acc, s.position i first acc0 = some (k, acc) := by
    cases hf : s.inFlight with
    | none => exact ⟨_, _, State.position_fresh hf i first acc0⟩
    | some f =>
      obtain rfl := hi f hf
      exact ⟨_, _, State.position_resumed hf first acc0⟩
  simp only [State.perform, hp]
  repeat' split
  all_goals nofun

theorem execOvf_ne_refused (s : State) (r : Refusal) : execOvf s ≠ .refused r := by
  unfold execOvf
  split <;> nofun

theorem exec_ne_refused {s : State} {i : Instr} (hi : ∀ f, s.inFlight = some f → f.cmd = i) (r : Refusal) :
    exec i s ≠ .refused r := by
  cases i with
  | ovf => exact execOvf_ne_refused s r
  | tick => rw [execTick_eq]; nofun
  | _ => exact State.perform_ne_refused hi _ _ _ r

theorem State.hostTurn_ne_refused (s : State) (r : Refusal) : s.hostTurn ≠ .refused r := by
  rcases s.hostTurn_cases with ⟨f, hf, hgo⟩ | ⟨hf, hidle | ⟨w, rest, -, ⟨i, -, hnew⟩ | ⟨-, hill⟩⟩⟩
  · rw [hgo]
    exact exec_ne_refused (fun g hg => by cases hf.symm.trans hg; rfl) r
  · rw [hidle]; nofun
  · rw [hnew]
    exact exec_ne_refused (fun g hg => by cases hf.symm.trans hg) r
  · rw [hill]; nofun

end Sys2Proof.Machine

section

open Sys2Proof Sys2Proof.Machine

/-- Settles O1: by the operation, every field of its word is read back (`decodeCode_encode`); the encoding needs no
constraint on the parameters. -/
theorem decodeOfEncode : Obligations.DecodeOfEncode :=
  fun _ _ _ hw => decodeCode_encode hw

/-- Settles O2: a decoded word is the word of its fields, by the opcode those of `encode i` (`encode_of_decode`), where
R10's bound on `PIN_W` keeps every bit of ATTACH's pin. -/
theorem encodeOfDecode : Obligations.EncodeOfDecode := by
  rintro c w i ⟨-, -, -, -, -, ⟨-, hpin⟩, -⟩ h
  obtain ⟨hcode, hwf⟩ := encode_of_decode hpin h
  exact ⟨hcode, hwf, decode_isCommand h⟩

/-- Settles O3: the decoder's tests are R75's grounds (`decode_error_iff`), and the host's turn answers ILL to a word
that fails them (`State.hostTurn_reserved`). -/
theorem reservedWordsAnswerIll : Obligations.ReservedWordsAnswerIll := by
  refine ⟨fun c w _ => decode_error_iff, ?_⟩
  intro s w rest _ hr hturn hpend hf hw
  have hhost : step s = s.takeTurn.clearPorts.hostTurn := by simpa [hturn, hpend] using step_cases s
  rw [hhost, State.hostTurn_reserved (by simpa using hf) (by simpa using hw) (by simpa using hr),
    State.respondIll_of_idle (by simpa using hf), State.takeTurn_frame]
  rfl

/-- Settles O28: a command's micro-step leaves the response port and log alone (`MicroOp.run_frame`), and what follows
it is one answer or the record in flight (`exec_command_next`). -/
theorem oneResponsePerCommand : Obligations.OneResponsePerCommand := by
  intro i s t hc h
  obtain ⟨u, hu, ht⟩ := exec_command_next hc h
  obtain ⟨hrsp, hresponses⟩ : u.rsp = s.rsp ∧ u.responses = s.responses := by
    rcases hu with rfl | ⟨op, acc, v, hr⟩
    · exact ⟨rfl, rfl⟩
    · obtain ⟨-, -, -, -, -, hrsp, hresponses, -⟩ := MicroOp.run_frame hr
      exact ⟨hrsp, hresponses⟩
  rcases ht with ⟨w, rfl⟩ | ⟨-, n, acc, rfl⟩
  · exact .inr ⟨rfl, w, rfl, by rw [State.answer_responses, hresponses]⟩
  · exact .inl ⟨nofun, hrsp, hresponses⟩

/-- Settles O46: the events are never refused, and the host's turn carries on what is in flight, or begins a command
where nothing is (`State.hostTurn_ne_refused`). -/
theorem stepNeverRefuses : Obligations.StepNeverRefuses := by
  intro s r
  rcases step_cases s with ⟨-, hrst⟩ | ⟨-, -, hovf⟩ | ⟨-, -, htick⟩ | ⟨-, -, hhost⟩
  · rw [hrst]; nofun
  · rw [hovf]; exact execOvf_ne_refused _ r
  · rw [htick, execTick_eq]; nofun
  · rw [hhost]; exact State.hostTurn_ne_refused _ r

/-- Settles O4: the decoder is evaluated at the nine codes. -/
theorem specWordsDecode : Obligations.SpecWordsDecode := by
  unfold Obligations.SpecWordsDecode
  decide

/-- Settles O6: the three fields of a value's response word, and those of the ILL word by evaluation. -/
theorem responseWordFields : Obligations.ResponseWordFields := by
  refine ⟨fun v => ⟨illBit_responseWord v, zeroBits_responseWord v, valueField_responseWord v⟩, ?_⟩
  decide

end

/-! SUPPORT. The pulse encoder over the integers (spec/40_pulse_encoder.md R90 to R96, R100): the clamp, the adjusted
width, the two encoded bytes for valid parameters, DEC of them, and the same with their ranges at the default
parameters. -/

namespace Sys2Proof.Machine

/-! ### The clamp and the overhead (R90, R91) -/

theorem clampUs_cast (c : Config) (w : Int) :
    (clampUs c w : Int) = if w < c.minPulseUs then (c.minPulseUs : Int)
      else if (c.maxPulseUs : Int) < w then c.maxPulseUs else w := by
  unfold clampUs
  split
  · rfl
  next hlow =>
    split
    · rfl
    · exact Int.toNat_of_nonneg (by omega)

/-- Within the bounds the clamp changes nothing. -/
theorem clampUs_of_mem {c : Config} {w : Int} (hmin : (c.minPulseUs : Int) ≤ w) (hmax : w ≤ c.maxPulseUs) :
    (clampUs c w : Int) = w := by
  rw [clampUs_cast, if_neg (by omega), if_neg (by omega)]

theorem enc_snd_toNat (c : Config) (w : Int) :
    (enc c w).2.toNat = 255 - c.ticksPerUs * (adjustedUs c w % c.blockUs) :=
  Nat.mod_eq_of_lt (Nat.lt_succ_of_le (Nat.sub_le ..))

section
variable {c : Config} (hc : ConfigValid c) (w : Int)
include hc

theorem clampUs_range : c.minPulseUs ≤ clampUs c w ∧ clampUs c w ≤ c.maxPulseUs := by
  obtain ⟨-, ⟨-, hmin, hmax, -⟩, -⟩ := hc
  unfold clampUs
  split
  · omega
  · split <;> omega

/-- ENC is total over the clamp: it encodes the clamped width (R94). -/
theorem enc_clampUs : enc c (clampUs c w) = enc c w := by
  obtain ⟨hmin, hmax⟩ := clampUs_range hc w
  have hclamp : (clampUs c (clampUs c w) : Int) = clampUs c w :=
    clampUs_of_mem (Int.ofNat_le.mpr hmin) (Int.ofNat_le.mpr hmax)
  unfold enc adjustedUs
  rw [Nat.cast_inj.mp hclamp]

/-- The overhead never exceeds the clamped width (R91). -/
theorem adjustedUs_add_overheadUs : adjustedUs c w + c.overheadUs = clampUs c w := by
  obtain ⟨-, ⟨hoverhead, -⟩, -⟩ := id hc
  exact Nat.sub_add_cancel (hoverhead.trans (clampUs_range hc w).1)

/-! ### The encoded bytes and DEC of them (R92, R93, R96) -/

/-- No block count is lost in 8 bits (R10, R92). -/
theorem enc_fst_toNat : (enc c w).1.toNat = adjustedUs c w / c.blockUs := by
  obtain ⟨-, -, hblocks, -⟩ := id hc
  have hle : adjustedUs c w / c.blockUs ≤ 254 :=
    (Nat.div_le_div_right (Nat.sub_le_sub_right (clampUs_range hc w).2 _)).trans hblocks
  exact Nat.mod_eq_of_lt (by unfold blocksOf; omega)

theorem ticksPerUs_pos : 0 < c.ticksPerUs := by
  obtain ⟨-, -, -, -, -, -, hblock⟩ := hc
  exact Nat.pos_of_ne_zero fun h => by simp [h] at hblock

/-- The rest of an adjusted width is less than the 256 counts of a block (R7, R93). -/
theorem ticks_of_rest_le (a : Nat) : c.ticksPerUs * (a % c.blockUs) ≤ 255 := by
  obtain ⟨-, -, -, -, -, -, hblock⟩ := id hc
  have hpos : 0 < c.blockUs := Nat.pos_of_ne_zero fun h => by simp [h] at hblock
  have hlt : c.ticksPerUs * (a % c.blockUs) < c.ticksPerUs * c.blockUs :=
    Nat.mul_lt_mul_of_pos_left (Nat.mod_lt a hpos) (ticksPerUs_pos hc)
  rw [Nat.mul_comm] at hblock
  omega

/-- DEC undoes ENC: the blocks give back the quotient by `BLOCK_US`, the remainder gives back the rest (R96). -/
theorem dec_enc : dec c (enc c w).1 (enc c w).2 = clampUs c w := by
  have hrest : (255 - (255 - c.ticksPerUs * (adjustedUs c w % c.blockUs))) / c.ticksPerUs =
      adjustedUs c w % c.blockUs := by
    rw [Nat.sub_sub_self (ticks_of_rest_le hc _), Nat.mul_div_cancel_left _ (ticksPerUs_pos hc)]
  rw [dec, enc_fst_toNat hc, enc_snd_toNat, hrest, Nat.div_add_mod, adjustedUs_add_overheadUs hc]

end

/-- ENC is injective on the widths the clamp leaves alone, since DEC gives them back (R94). -/
theorem enc_injective_of_mem {c : Config} (hc : ConfigValid c) {v w : Int} (hv : (c.minPulseUs : Int) ≤ v)
    (hv' : v ≤ c.maxPulseUs) (hw : (c.minPulseUs : Int) ≤ w) (hw' : w ≤ c.maxPulseUs) (h : enc c v = enc c w) :
    v = w := by
  have hclamp : clampUs c v = clampUs c w := by rw [← dec_enc hc v, h, dec_enc hc w]
  rw [← clampUs_of_mem hv hv', hclamp, clampUs_of_mem hw hw']

/-! ### The default parameters (R91 to R95, R100) -/

section
variable (w : Int)

theorem adjustedUs_default_add : adjustedUs Config.default w + 8 = clampUs Config.default w :=
  adjustedUs_add_overheadUs configValid_default w

theorem adjustedUs_default_range : 492 ≤ adjustedUs Config.default w ∧ adjustedUs Config.default w ≤ 1992 := by
  have hrange : 500 ≤ clampUs Config.default w ∧ clampUs Config.default w ≤ 2000 :=
    clampUs_range configValid_default w
  have hadd := adjustedUs_default_add w
  omega

theorem enc_default_fst : (enc Config.default w).1.toNat = adjustedUs Config.default w / 128 :=
  enc_fst_toNat configValid_default w

theorem enc_default_snd : (enc Config.default w).2.toNat = 255 - 2 * (adjustedUs Config.default w % 128) :=
  enc_snd_toNat Config.default w

theorem enc_default_fst_range : 3 ≤ (enc Config.default w).1.toNat ∧ (enc Config.default w).1.toNat ≤ 15 := by
  have hrange := adjustedUs_default_range w
  rw [enc_default_fst]
  omega

/-- The remainder is odd, since a microsecond is two ticks (R93). -/
theorem enc_default_snd_range : (enc Config.default w).2.toNat % 2 = 1 ∧ 1 ≤ (enc Config.default w).2.toNat ∧
    (enc Config.default w).2.toNat ≤ 255 := by
  rw [enc_default_snd]
  omega

end

theorem dec_default (b r : Byte) : dec Config.default b r = 128 * b.toNat + (255 - r.toNat) / 2 + 8 := rfl

/-- The slices of a 16-bit width are its quotient and rest by 128, and the complement of 7 bits is 127 less them: so
`{~a[6:0], 1}` is `255 - 2 r` (R100). -/
theorem encDatapath_eq (a : Half) :
    encDatapath a = (BitVec.ofNat 8 (a.toNat / 128), BitVec.ofNat 8 (255 - 2 * (a.toNat % 128))) := by
  have hlow : (~~~(a.extractLsb' 0 7)).toNat = 127 - a.toNat % 128 := by simp
  have hconcat : (~~~(a.extractLsb' 0 7) ++ (1 : BitVec 1)).toNat = (~~~(a.extractLsb' 0 7)).toNat * 2 + 1 :=
    BitVec.toNat_concat _ true
  refine Prod.ext (BitVec.eq_of_toNat_eq ?_) (BitVec.eq_of_toNat_eq ?_)
  · simp [encDatapath, Nat.shiftRight_eq_div_pow]
  · rw [encDatapath, hconcat, hlow, BitVec.toNat_ofNat]
    omega

end Sys2Proof.Machine

section

open Sys2Proof Sys2Proof.Machine

/-- Settles O11: no byte overflows for valid parameters (`enc_fst_toNat`, `enc_snd_toNat`), and the default ranges
follow from the clamp's. -/
theorem encoderFollowsItsFourSteps : Obligations.EncoderFollowsItsFourSteps := by
  refine ⟨fun c w hc => ⟨clampUs_cast c w, ?_, enc_fst_toNat hc w, ?_⟩, fun w => ⟨clampUs_cast _ w, ?_, ?_⟩⟩
  · have hadd := adjustedUs_add_overheadUs hc w
    omega
  · rw [enc_snd_toNat, Nat.cast_sub (ticks_of_rest_le hc _)]
    push_cast
    rfl
  · have hadd := adjustedUs_default_add w
    omega
  · obtain ⟨hlow, hhigh⟩ := adjustedUs_default_range w
    obtain ⟨hB, hB'⟩ := enc_default_fst_range w
    exact ⟨hlow, hhigh, enc_default_fst w, hB, hB', enc_default_snd w, enc_default_snd_range w⟩

/-- Settles O12: the adjusted width is its quotient and rest by 128, and DEC's inverse makes ENC injective
(`enc_injective_of_mem`). -/
theorem encoderProperties : Obligations.EncoderProperties := by
  refine ⟨fun w => ?_, fun v w hv hv' hw hw' => enc_injective_of_mem configValid_default hv hv' hw hw', ?_⟩
  · obtain ⟨hB, hB'⟩ := enc_default_fst_range w
    obtain ⟨hodd, hR, hR'⟩ := enc_default_snd_range w
    refine ⟨(enc_clampUs configValid_default w).symm, hB, hB', hodd, hR, hR', ?_⟩
    have hadd := adjustedUs_default_add w
    have hfst := enc_default_fst w
    have hsnd := enc_default_snd w
    omega
  · decide

/-- Settles O14: DEC gives the clamped width back (`dec_enc`), which within the bounds is the width itself. -/
theorem readBackIsExact : Obligations.ReadBackIsExact := by
  intro c w hc
  refine ⟨dec_enc hc w, fun hmin hmax => ?_⟩
  rw [dec_enc hc, clampUs_of_mem hmin hmax]

/-- Settles O15: the datapath divides by 128 (`encDatapath_eq`), as ENC does at the default parameters, and the adjusted
width fits 16 bits. -/
theorem datapathComputesEnc : Obligations.DatapathComputesEnc := by
  intro w
  have hrange := adjustedUs_default_range w
  rw [encDatapath_eq, BitVec.toNat_ofNat, Nat.mod_eq_of_lt (by omega)]
  rfl

/-- Settles O16: the quotient of R99 by definition, and by arithmetic the periods that give 52 at the other defaults. -/
theorem syncSlotSizing : Obligations.SyncSlotSizing := by
  refine ⟨fun _ => rfl, rfl, fun f => ?_⟩
  show (f - 4 * 1500) / 128 = 52 ↔ _
  omega

/-- Settles O13: the formula by definition, and its range by that of the two bytes. -/
theorem decoderFormula : Obligations.DecoderFormula := by
  intro b r
  have hb := b.isLt
  rw [dec_default]
  omega

end

/-! SUPPORT. WRITE_US and READ_US micro-step by micro-step (spec/40_pulse_encoder.md R97, R98), and what a command
whose micro-steps each write one field of one slot leaves unchanged (R62, R97, R144). -/

namespace Sys2Proof.Machine

/-! ### Handles -/

theorem slotIndex_ne_zero {ch : BitVec 4} (h : ch ≠ 0) : slotIndex ch ≠ 0 :=
  fun h0 => h (BitVec.eq_of_toNat_eq h0)

theorem isInert_of_ne {ch : BitVec 4} (h : ch ≠ 0) : isInert ch = false :=
  decide_eq_false (slotIndex_ne_zero h)

theorem chanOk_zero (c : Config) : chanOk c 0 = true := decide_eq_true (Nat.zero_le _)

/-! ### Micro-steps that write one field of a slot -/

/-- The micro-step changes `slot[j]` by `f` and leaves the command's value as it was. -/
def MicroOp.Updates (op : MicroOp) (j : Nat) (f : Slot → Slot) : Prop :=
  ∀ s acc, MicroOp.run s acc op = (s.updateSlot j f).map (·, acc)

theorem writeTickBlocks_updates (j : Nat) (v : Byte) :
    (MicroOp.writeTickBlocks j v).Updates j ({ · with tickBlocks := v }) := fun _ _ => rfl

theorem writeRemainder_updates (j : Nat) (v : Byte) :
    (MicroOp.writeRemainder j v).Updates j ({ · with remainder := v }) := fun _ _ => rfl

theorem writePinActive_updates (j : Nat) (b : Bool) :
    (MicroOp.writePinActive j b).Updates j ({ · with pinActive := b }) := fun _ _ => rfl

theorem MicroOp.Updates.run_servo {op : MicroOp} {j : Nat} {f : Slot → Slot} (h : op.Updates j f) {s : State}
    {sl : Slot} (hj : j ≠ 0) (hsl : s.table[j]? = some sl) (acc : Half) :
    MicroOp.run s acc op = .ok ({ s with table := s.table.set j (f sl) }, acc) := by
  rw [h s acc, State.updateSlot_servo hj hsl]
  rfl

/-- A slot write leaves the slots in a relation that each slot has to itself and to its changed value. -/
theorem State.updateSlot_related {R : Slot → Slot → Prop} (hrefl : ∀ sl, R sl sl) {s t : State} {j : Nat}
    {f : Slot → Slot} (hf : ∀ sl, R sl (f sl)) (h : s.updateSlot j f = .ok t) {i : Nat} {sl sl' : Slot}
    (hsl : s.table[i]? = some sl) (hsl' : t.table[i]? = some sl') : R sl sl' := by
  rcases State.updateSlot_ok_iff.mp h with ⟨-, rfl⟩ | ⟨-, st, hst, rfl⟩
  · cases hsl.symm.trans hsl'
    exact hrefl sl
  · by_cases hij : i = j
    · subst hij
      cases hsl.symm.trans hst
      obtain ⟨-, rfl⟩ : _ ∧ f sl = sl' := by simpa [List.getElem?_set] using hsl'
      exact hf sl
    · rw [List.getElem?_set_ne (Ne.symm hij)] at hsl'
      cases hsl.symm.trans hsl'
      exact hrefl sl

/-- A command whose micro-steps all change `slot[j]`, each within the relation `R`, changes of the table no other slot
and not slot 0, and leaves the slots in the relation `R`. -/
theorem State.perform_frame_of_updates {R : Slot → Slot → Prop} (hrefl : ∀ sl, R sl sl) {s t : State} {i : Instr}
    {prog : List MicroOp} {first j : Nat} {acc0 : Half}
    (hprog : ∀ op ∈ prog, ∃ f, op.Updates j f ∧ ∀ sl, R sl (f sl)) (h : s.perform i prog first acc0 = .next t) :
    t = { s with table := t.table, rsp := t.rsp, responses := t.responses, inFlight := t.inFlight } ∧
    t.table.length = s.table.length ∧ (∀ k, k ≠ j ∨ k = 0 → t.table[k]? = s.table[k]?) ∧
    ∀ (k : Nat) (sl sl' : Slot), s.table[k]? = some sl → t.table[k]? = some sl' → R sl sl' := by
  obtain ⟨u, rfl | ⟨op, hop, acc, v, hr⟩, ht⟩ := State.perform_frame h
  · rw [ht]
    refine ⟨rfl, rfl, fun _ _ => rfl, fun k sl sl' hsl hsl' => ?_⟩
    cases hsl.symm.trans hsl'
    exact hrefl sl
  · obtain ⟨f, hf, hR⟩ := hprog op hop
    obtain ⟨u', hu, he⟩ := except_map_ok ((hf s acc).symm.trans hr)
    cases he
    obtain ⟨hlen, hother, hzero⟩ := State.updateSlot_table hu
    rw [State.updateSlot_frame hu] at ht
    rw [ht]
    refine ⟨rfl, hlen, ?_, fun k sl sl' => State.updateSlot_related hrefl hR hu⟩
    rintro k (hk | rfl)
    · exact hother k hk
    · exact hzero

/-! ### Commands of two micro-steps -/

theorem State.perform_first_of_two {s u : State} {i : Instr} {op₁ op₂ : MicroOp} {acc0 v : Half}
    (hidle : s.inFlight = none) (hw : i.wellFormed s.cfg = true) (hr : MicroOp.run s acc0 op₁ = .ok (u, v)) :
    s.perform i [op₁, op₂] 0 acc0 = .next (u.setInFlight i 1 v) :=
  State.perform_step (State.position_fresh hidle i 0 acc0) hw rfl hr

theorem State.perform_second_of_two {s u : State} {i : Instr} {op₁ op₂ : MicroOp} {acc0 acc v : Half}
    (hf : s.inFlight = some ⟨i, 1, acc⟩) (hw : i.wellFormed s.cfg = true) (hr : MicroOp.run s acc op₂ = .ok (u, v)) :
    s.perform i [op₁, op₂] 0 acc0 = .next (u.respond v) :=
  State.perform_step (State.position_resumed hf 0 acc0) hw rfl hr

theorem execTimes_two {i : Instr} {s t u : State} (hst : exec i s = .next t) (htu : exec i t = .next u) :
    execTimes 2 i s = .next u := by
  simp [execTimes, hst, htu]

/-! ### WRITE_US (R97) -/

theorem exec_writeUs (ch : BitVec 4) (width : Half) (s : State) :
    exec (.writeUs ch width) s = s.perform (.writeUs ch width) (writeUsSteps s.cfg ch width) 0 0 := rfl

theorem exec_writeUs_inert {s : State} (hidle : s.inFlight = none) (width : Half) :
    exec (.writeUs 0 width) s = .next (s.respond 0) := by
  rw [exec_writeUs]
  exact State.perform_done (State.position_fresh hidle _ 0 0) (chanOk_zero s.cfg) rfl

theorem writeUsSteps_byRule {c : Config} {ch : BitVec 4} (hch : ch ≠ 0) (hc : c.writeOrder = .byRule) (width : Half) :
    writeUsSteps c ch width = [.writeTickBlocks (slotIndex ch) (encOperand c width).1,
      .writeRemainder (slotIndex ch) (encOperand c width).2] := by
  simp [writeUsSteps, isInert_of_ne hch, hc]

theorem writeUsSteps_swapped {c : Config} {ch : BitVec 4} (hch : ch ≠ 0) (hc : c.writeOrder = .swapped) (width : Half) :
    writeUsSteps c ch width = [.writeRemainder (slotIndex ch) (encOperand c width).2,
      .writeTickBlocks (slotIndex ch) (encOperand c width).1] := by
  simp [writeUsSteps, isInert_of_ne hch, hc]

/-- The slot's pin fields are as before. -/
def Slot.SamePin (sl sl' : Slot) : Prop := sl'.pinId = sl.pinId ∧ sl'.pinActive = sl.pinActive

/-- Every micro-step of WRITE_US writes an encoded field of the slot named, and no pin field. -/
theorem writeUsSteps_update (c : Config) (ch : BitVec 4) (width : Half) : ∀ op ∈ writeUsSteps c ch width,
    ∃ f, op.Updates (slotIndex ch) f ∧ ∀ sl, Slot.SamePin sl (f sl) := by
  have hblocks : ∃ f, (MicroOp.writeTickBlocks (slotIndex ch) (encOperand c width).1).Updates (slotIndex ch) f ∧
      ∀ sl, Slot.SamePin sl (f sl) :=
    ⟨_, writeTickBlocks_updates _ _, fun _ => ⟨rfl, rfl⟩⟩
  have hrem : ∃ f, (MicroOp.writeRemainder (slotIndex ch) (encOperand c width).2).Updates (slotIndex ch) f ∧
      ∀ sl, Slot.SamePin sl (f sl) :=
    ⟨_, writeRemainder_updates _ _, fun _ => ⟨rfl, rfl⟩⟩
  unfold writeUsSteps
  split
  · nofun
  · split <;> simp only [List.forall_mem_cons]
    · exact ⟨hblocks, hrem, nofun⟩
    · exact ⟨hrem, hblocks, nofun⟩

section
variable {s : State} {ch : BitVec 4} {width : Half} {sl : Slot} {op₁ op₂ : MicroOp} {f g : Slot → Slot}
  (hok : chanOk s.cfg ch = true) (hch : ch ≠ 0) (hsl : s.table[ch.toNat]? = some sl)
  (hprog : writeUsSteps s.cfg ch width = [op₁, op₂])
include hok hch hsl hprog

theorem exec_writeUs_first (hidle : s.inFlight = none) (hf : op₁.Updates (slotIndex ch) f) :
    exec (.writeUs ch width) s = .next
      { s with table := s.table.set ch.toNat (f sl), inFlight := some ⟨.writeUs ch width, 1, 0⟩ } := by
  rw [exec_writeUs, hprog]
  exact State.perform_first_of_two (i := .writeUs ch width) hidle hok (hf.run_servo (slotIndex_ne_zero hch) hsl 0)

theorem exec_writeUs_second (hfly : s.inFlight = some ⟨.writeUs ch width, 1, 0⟩) (hg : op₂.Updates (slotIndex ch) g) :
    exec (.writeUs ch width) s = .next (State.respond { s with table := s.table.set ch.toNat (g sl) } 0) := by
  rw [exec_writeUs, hprog]
  exact State.perform_second_of_two hfly hok (hg.run_servo (slotIndex_ne_zero hch) hsl 0)

/-- With nothing between them the two micro-steps make both changes to the slot. -/
theorem execTimes_writeUs_of_steps (hidle : s.inFlight = none) (hf : op₁.Updates (slotIndex ch) f)
    (hg : op₂.Updates (slotIndex ch) g) : execTimes 2 (.writeUs ch width) s =
      .next (State.respond { s with table := s.table.set ch.toNat (g (f sl)) } 0) := by
  have hfirst := exec_writeUs_first hok hch hsl hprog hidle hf
  obtain ⟨hlt, -⟩ := List.getElem?_eq_some_iff.mp hsl
  have hsecond := exec_writeUs_second (width := width)
    (s := { s with table := s.table.set ch.toNat (f sl), inFlight := some ⟨.writeUs ch width, 1, 0⟩ })
    hok hch (List.getElem?_set_self hlt) hprog rfl hg
  simp only [List.set_set] at hsecond
  exact execTimes_two hfirst hsecond

end

/-- Uninterrupted, WRITE_US stores the pair `ENC(width)` in either order (R97, U8). -/
theorem execTimes_writeUs {s : State} {ch : BitVec 4} {sl : Slot} (hok : chanOk s.cfg ch = true) (hch : ch ≠ 0)
    (hsl : s.table[ch.toNat]? = some sl) (hidle : s.inFlight = none) (width : Half) :
    execTimes 2 (.writeUs ch width) s = .next (State.respond
      { s with table := s.table.set ch.toNat
                 { sl with tickBlocks := (enc s.cfg width.toInt).1, remainder := (enc s.cfg width.toInt).2 } } 0) := by
  cases hc : s.cfg.writeOrder with
  | byRule =>
    exact execTimes_writeUs_of_steps hok hch hsl (writeUsSteps_byRule hch hc width) hidle
      (writeTickBlocks_updates _ _) (writeRemainder_updates _ _)
  | swapped =>
    exact execTimes_writeUs_of_steps hok hch hsl (writeUsSteps_swapped hch hc width) hidle
      (writeRemainder_updates _ _) (writeTickBlocks_updates _ _)

/-! ### READ_US (R98) -/

theorem exec_readUs (ch : BitVec 4) (s : State) :
    exec (.readUs ch) s = s.perform (.readUs ch) (readUsSteps ch) 0 0 := rfl

theorem exec_readUs_inert {s : State} (hidle : s.inFlight = none) : exec (.readUs 0) s = .next (s.respond 0) := by
  rw [exec_readUs]
  exact State.perform_done (State.position_fresh hidle _ 0 0) (chanOk_zero s.cfg) rfl

section
variable {s : State} {ch : BitVec 4} {sl : Slot} (hok : chanOk s.cfg ch = true) (hch : ch ≠ 0)
  (hsl : s.table[ch.toNat]? = some sl)

include hch in
theorem readUsSteps_servo : readUsSteps ch = [.readTickBlocks (slotIndex ch), .readRemainder (slotIndex ch)] := by
  simp [readUsSteps, isInert_of_ne hch]

include hch hsl in
theorem State.slot_of_handle : s.slot (slotIndex ch) = .ok sl := (State.slot_servo (slotIndex_ne_zero hch)).mpr hsl

include hok hch hsl

/-- READ_US's first micro-step keeps the blocks as the command's value. -/
theorem exec_readUs_first (hidle : s.inFlight = none) : exec (.readUs ch) s =
    .next { s with inFlight := some ⟨.readUs ch, 1, sl.tickBlocks.setWidth 16⟩ } := by
  have hrun : MicroOp.run s 0 (.readTickBlocks (slotIndex ch)) = .ok (s, sl.tickBlocks.setWidth 16) := by
    simp [MicroOp.run, State.slot_of_handle hch hsl, Except.map]
  rw [exec_readUs, readUsSteps_servo hch]
  exact State.perform_first_of_two (i := .readUs ch) hidle hok hrun

/-- READ_US's second micro-step answers DEC of the blocks it has kept and of the remainder as it is now. -/
theorem exec_readUs_second {b : Byte} (hfly : s.inFlight = some ⟨.readUs ch, 1, b.setWidth 16⟩) :
    exec (.readUs ch) s = .next (s.respond (BitVec.ofNat 16 (dec s.cfg b sl.remainder))) := by
  have hrun : MicroOp.run s (b.setWidth 16) (.readRemainder (slotIndex ch)) =
      .ok (s, BitVec.ofNat 16 (dec s.cfg b sl.remainder)) := by
    simp [MicroOp.run, State.slot_of_handle hch hsl, Except.map, decValue]
  rw [exec_readUs, readUsSteps_servo hch]
  exact State.perform_second_of_two hfly hok hrun

/-- Uninterrupted, READ_US answers DEC of the slot's pair. -/
theorem execTimes_readUs (hidle : s.inFlight = none) : execTimes 2 (.readUs ch) s =
    .next (s.respond (BitVec.ofNat 16 (dec s.cfg sl.tickBlocks sl.remainder))) :=
  execTimes_two (exec_readUs_first hok hch hsl hidle)
    (exec_readUs_second (s := { s with inFlight := some ⟨.readUs ch, 1, sl.tickBlocks.setWidth 16⟩ }) hok hch hsl rfl)

end

/-! ### DETACH (R144) -/

/-- The slot is as before but for `pin.active`. -/
def Slot.SameButActive (sl sl' : Slot) : Prop :=
  sl'.pinId = sl.pinId ∧ sl'.tickBlocks = sl.tickBlocks ∧ sl'.remainder = sl.remainder

/-- DETACH's one micro-step writes `pin.active` of the slot named. -/
theorem detachSteps_update (ch : BitVec 4) : ∀ op ∈ detachSteps ch,
    ∃ f, op.Updates (slotIndex ch) f ∧ ∀ sl, Slot.SameButActive sl (f sl) := by
  unfold detachSteps
  split
  · nofun
  · simp only [List.forall_mem_cons]
    exact ⟨⟨_, writePinActive_updates _ _, fun _ => ⟨rfl, rfl, rfl⟩⟩, nofun⟩

end Sys2Proof.Machine

section

open Sys2Proof Sys2Proof.Machine

/-- Settles O18: no micro-step for the inert handle; for a servo slot the two of the rules' order, each of which changes
its field in whatever state it is taken. -/
theorem writeUsWritesBlocksThenRemainder : Obligations.WriteUsWritesBlocksThenRemainder := by
  refine ⟨fun s width hidle => exec_writeUs_inert hidle width, fun s ch width sl horder hok hch hsl => ?_⟩
  have hprog := writeUsSteps_byRule hch horder width
  exact ⟨fun hidle => exec_writeUs_first hok hch hsl hprog hidle (writeTickBlocks_updates _ _),
    fun hfly => exec_writeUs_second hok hch hsl hprog hfly (writeRemainder_updates _ _)⟩

/-- Settles O19: by the write order; the two changes are of different fields, so either order stores the pair. -/
theorem writeUsStoresTheEncodedPair : Obligations.WriteUsStoresTheEncodedPair :=
  fun _ _ width _ hok hch hidle hsl => execTimes_writeUs hok hch hsl hidle width

/-- Settles O20: the record kept between the two reads holds the blocks, which widening to 16 bits does not lose. -/
theorem readUsAnswersDec : Obligations.ReadUsAnswersDec := by
  refine ⟨fun s hidle => exec_readUs_inert hidle, fun s ch sl hok hch hidle hsl => ?_⟩
  refine ⟨_, exec_readUs_first hok hch hsl hidle, fun u sl' hfly hcfg hsl' => ?_⟩
  rw [← hcfg] at hok ⊢
  exact exec_readUs_second hok hch hsl' hfly

/-- Settles O21: WRITE_US stores `ENC(width)` (`execTimes_writeUs`), READ_US answers DEC of it (`execTimes_readUs`), and
that is the clamp (`dec_enc`), at most 32767 (R10). -/
theorem readUsAfterWriteUs : Obligations.ReadUsAfterWriteUs := by
  intro s ch width sl hc hok hch hidle hsl
  obtain ⟨hlt, -⟩ := List.getElem?_eq_some_iff.mp hsl
  refine ⟨_, _, execTimes_writeUs hok hch hsl hidle width,
    execTimes_readUs hok hch (List.getElem?_set_self hlt) rfl, ?_, ?_⟩
  · rw [← dec_enc hc width.toInt]
    rfl
  · obtain ⟨-, ⟨-, -, -, hmax⟩, -⟩ := id hc
    have hle := (clampUs_range hc width.toInt).2
    exact Nat.mod_eq_of_lt (by omega)

/-- Settles O39: every micro-step of the two commands changes the slot named, WRITE_US's an encoded field, DETACH's
`pin.active` (`State.perform_frame_of_updates`). -/
theorem writingCommandsFrame : Obligations.WritingCommandsFrame := by
  intro s t ch width
  have hwrite (h : exec (.writeUs ch width) s = .next t) :=
    State.perform_frame_of_updates (R := Slot.SamePin) (fun _ => ⟨rfl, rfl⟩) (writeUsSteps_update s.cfg ch width) h
  have hdetach (h : exec (.detach ch) s = .next t) :=
    State.perform_frame_of_updates (R := Slot.SameButActive) (fun _ => ⟨rfl, rfl, rfl⟩) (detachSteps_update ch) h
  refine ⟨?_, fun h => ?_, fun h => ?_⟩
  · rintro (h | h)
    · obtain ⟨hframe, hlen, hother, -⟩ := hwrite h
      exact ⟨hframe, hlen, hother⟩
    · obtain ⟨hframe, hlen, hother, -⟩ := hdetach h
      exact ⟨hframe, hlen, hother⟩
  · obtain ⟨-, -, -, hpin⟩ := hwrite h
    exact hpin
  · obtain ⟨-, -, -, hslot⟩ := hdetach h
    exact hslot

end

/-! SUPPORT. The timer and the handler (spec/41_scheduler.md R110 to R118): what a TICK, a run of TICKs and a handler
run answer, and where the handler leaves the cursor, the counters and the pin of the slot that ends. -/

namespace Sys2Proof.Machine

/-! ### TICKs (R118) -/

theorem execTimes_one (i : Instr) (s : State) : execTimes 1 i s = exec i s := by
  rw [execTimes_succ]
  cases exec i s <;> rfl

/-- A counter below 255 has room for one more. -/
theorem cnt_ne_255 {n : Nat} (h : n < 255) : BitVec.ofNat 8 n ≠ 255 :=
  fun he => by simpa [Nat.mod_eq_of_lt (by omega : n < 256), h.ne] using congrArg BitVec.toNat he

/-- A TICK short of the boundary counts (R118). -/
theorem exec_tick_counts {s : State} (hp : s.ovfPend = false) (ht : s.tmrOn = true) (hc : s.cnt ≠ 255) :
    exec .tick s = .next { s with now := s.now + 1, cnt := s.cnt + 1 } := by
  rw [execTick_eq, if_neg (by simp [hp]), if_pos ht, State.countUp, if_neg (show s.advanceNow.cnt ≠ 255 from hc)]
  rfl

/-- A TICK at the boundary wraps the counter and raises the overflow, where that is enabled (R118). -/
theorem exec_tick_wraps {s : State} (hp : s.ovfPend = false) (ht : s.tmrOn = true) (hc : s.cnt = 255) :
    exec .tick s = .next { s with now := s.now + 1, cnt := 0, ovfPend := s.ovie } := by
  simp [execTick_eq, hp, ht, hc, State.countUp, State.advanceNow]

theorem exec_tick_stopped {s : State} (hp : s.ovfPend = false) (ht : s.tmrOn = false) :
    exec .tick s = .next { s with now := s.now + 1 } := by
  simp [execTick_eq, hp, ht, State.advanceNow]

/-- Ticks short of the boundary move only time and the counter. -/
theorem execTimes_tick_counts {s : State} (hp : s.ovfPend = false) (ht : s.tmrOn = true) (n : Nat)
    (hn : n < 256 - s.cnt.toNat) :
    execTimes n .tick s = .next { s with now := s.now + n, cnt := BitVec.ofNat 8 (s.cnt.toNat + n) } := by
  induction n with
  | zero => simp [execTimes]
  | succ n ih =>
    rw [execTimes_add n 1 _ _ _ (ih (by omega)), execTimes_one,
      exec_tick_counts (by exact hp) (by exact ht) (cnt_ne_255 (by omega))]
    simp [Nat.add_assoc, BitVec.ofNat_add, BitVec.add_assoc]

/-- The number of ticks to the boundary, the last of which raises the overflow. -/
theorem execTimes_tick_wraps {s : State} (hp : s.ovfPend = false) (ht : s.tmrOn = true) :
    execTimes (256 - s.cnt.toNat) .tick s =
      .next { s with now := s.now + (256 - s.cnt.toNat), cnt := 0, ovfPend := s.ovie } := by
  have hlt := s.cnt.isLt
  obtain ⟨n, hn⟩ : ∃ n, 256 - s.cnt.toNat = n + 1 := ⟨255 - s.cnt.toNat, by omega⟩
  have hsum : s.cnt.toNat + n = 255 := by omega
  rw [hn, execTimes_add n 1 _ _ _ (execTimes_tick_counts hp ht n (by omega)), execTimes_one, hsum,
    exec_tick_wraps (by exact hp) (by exact ht) rfl]
  rfl

/-! ### The handler's three outcomes (R110, R111) -/

/-- The slot `old` under the cursor has ended, the next has not begun: the handler's state between the two halves of
R110 step 3. -/
def State.leftSlot (s : State) (old : Slot) : State :=
  ((s.enterHandler.driveSlot old .low).setSequencer (s.cur + 1) 0).timerLoad 0

section
variable {s : State} {old : Slot} (hs : s.slot s.cur.toNat = .ok old)
include hs

/-- A handler run is R110's body on the slot under the cursor. -/
theorem execOvf_of_handleSlot {t : State} (h : s.enterHandler.handleSlot old = .ok t) : exec .ovf s = .next t := by
  have hslot : s.enterHandler.slot s.enterHandler.cur.toNat = .ok old := hs
  have hhandler : s.handler = .ok t := by
    rw [State.handler, State.handlerBody, hslot]
    show (s.enterHandler.handleSlot old).map State.leaveHandler = .ok t
    rw [h]
    rfl
  rw [exec, execOvf, hhandler]

/-- R110 step 2. -/
theorem execOvf_loads (hi : s.iter + 1 = old.tickBlocks) :
    exec .ovf s = .next (s.enterHandler.timerLoad old.remainder) :=
  execOvf_of_handleSlot hs (if_pos hi)

/-- R110 step 4. -/
theorem execOvf_counts (hi : s.iter + 1 < old.tickBlocks) : exec .ovf s = .next s.enterHandler :=
  execOvf_of_handleSlot hs ((if_neg (BitVec.ne_of_lt hi)).trans (if_neg (BitVec.lt_asymm hi)))

/-- R110 step 3. -/
theorem execOvf_ends (hi : old.tickBlocks < s.iter + 1) {t : State} (hb : (s.leftSlot old).beginSlot = .ok t) :
    exec .ovf s = .next t :=
  execOvf_of_handleSlot hs ((if_neg (BitVec.ne_of_lt hi).symm).trans ((if_pos hi).trans hb))

end

/-! ### The rotation (R113, R114) -/

/-- The cursor's successor does not wrap in its three bits, since there are at most six channels (R10, R29). -/
theorem cur_succ_toNat {c : Config} {cur : BitVec 3} (h6 : c.nCh ≤ 6) (hc : cur.toNat ≤ c.nCh) :
    (cur + 1).toNat = cur.toNat + 1 := by
  rw [BitVec.toNat_add]
  exact Nat.mod_eq_of_lt (show cur.toNat + 1 < 8 by omega)

theorem nextSlot_le (c : Config) (i : Nat) : nextSlot c i ≤ c.nCh := by
  unfold nextSlot
  split <;> omega

section
variable {s : State} (old : Slot)

theorem State.leftSlot_cfg : (s.leftSlot old).cfg = s.cfg := by
  show (s.enterHandler.driveSlot old .low).cfg = s.cfg
  rw [State.driveSlot_frame]
  rfl

theorem State.leftSlot_slot (i : Nat) : (s.leftSlot old).slot i = s.slot i :=
  State.slot_congr (by simp [State.leftSlot]) i

theorem State.leftSlot_pinLevel (hact : old.pinActive = true) : (s.leftSlot old).pinLevel old.pinId = .driven .low := by
  show (s.enterHandler.driveSlot old .low).pinLevel old.pinId = _
  rw [State.driveSlot_active hact, State.pinLevel_pinWrite, if_pos rfl]

/-- An active slot's pin is low after it, unless the slot that begins is active on the same pin (R117). -/
theorem State.leftSlot_beginSlot_pinLevel {old : Slot} {t : State} (hb : (s.leftSlot old).beginSlot = .ok t)
    (hact : old.pinActive = true)
    (hnew : ∀ new, s.slot t.cur.toNat = .ok new → new.pinActive = true → new.pinId ≠ old.pinId) :
    t.pinLevel old.pinId = .driven .low := by
  have hlow := s.leftSlot_pinLevel old hact
  rcases State.beginSlot_ok hb with ⟨-, rfl⟩ | ⟨-, new, hslot, rfl⟩
  · exact hlow
  · rw [State.leftSlot_slot] at hslot
    rw [State.driveSlot_cur] at hnew
    refine by_contra fun hne => ?_
    obtain ⟨hact', hpin⟩ := State.pinLevel_driveSlot fun he => hne (he.trans hlow)
    exact hnew new hslot hact' hpin

variable (h6 : s.cfg.nCh ≤ 6)
include h6

/-- Past the last slot the cursor goes to slot 0, and no pin is driven. -/
theorem State.leftSlot_beginSlot_wrap (hlast : s.cur.toNat = s.cfg.nCh) :
    (s.leftSlot old).beginSlot = .ok ((s.leftSlot old).setSequencer 0 0) := by
  have hcur : (s.leftSlot old).cur.toNat = s.cur.toNat + 1 := cur_succ_toNat h6 hlast.le
  rw [State.beginSlot, if_pos (by rw [State.leftSlot_cfg]; omega)]
  rfl

/-- Before the last slot the cursor goes to the next one, whose pin goes high. -/
theorem State.leftSlot_beginSlot_move {new : Slot} (hlt : s.cur.toNat < s.cfg.nCh)
    (hnew : s.slot (s.cur.toNat + 1) = .ok new) :
    (s.leftSlot old).beginSlot = .ok ((s.leftSlot old).driveSlot new .high) := by
  have hcur : (s.leftSlot old).cur.toNat = s.cur.toNat + 1 := cur_succ_toNat h6 hlt.le
  rw [State.beginSlot, if_neg (by rw [State.leftSlot_cfg]; omega), hcur, State.leftSlot_slot, hnew]
  rfl

variable (hc : s.cur.toNat ≤ s.cfg.nCh)
include hc

/-- In a table of full length (R20) there is always a slot to begin. -/
theorem State.leftSlot_beginSlot_total (hlen : s.table.length = s.cfg.nCh + 1) :
    ∃ t, (s.leftSlot old).beginSlot = .ok t := by
  rcases hc.lt_or_eq with hlt | hlast
  · have hget : s.table[s.cur.toNat + 1]? = some s.table[s.cur.toNat + 1] := List.getElem?_eq_getElem (by omega)
    exact ⟨_, State.leftSlot_beginSlot_move old h6 hlt ((State.slot_servo (by omega)).mpr hget)⟩
  · exact ⟨_, State.leftSlot_beginSlot_wrap old h6 hlast⟩

variable {old} {t : State} (hb : (s.leftSlot old).beginSlot = .ok t)
include hb

/-- The slot that begins is the next of the rotation, and both counters start again (R110 step 3, R114). -/
theorem State.leftSlot_beginSlot_counters : t.cur.toNat = nextSlot s.cfg s.cur.toNat ∧ t.iter = 0 ∧ t.cnt = 0 := by
  have hcur : (s.leftSlot old).cur.toNat = s.cur.toNat + 1 := cur_succ_toNat h6 hc
  rcases State.beginSlot_ok hb with ⟨hwrap, rfl⟩ | ⟨hle, new, -, rfl⟩
  · rw [hcur, State.leftSlot_cfg] at hwrap
    exact ⟨by rw [nextSlot, if_pos hwrap]; rfl, rfl, rfl⟩
  · rw [hcur, State.leftSlot_cfg] at hle
    refine ⟨?_, ?_, ?_⟩
    · rw [State.driveSlot_cur, hcur, nextSlot, if_neg (by omega)]
    · rw [State.driveSlot_frame]; rfl
    · rw [State.driveSlot_frame]; rfl

end

/-- A handler run leaves the cursor or moves it on in the rotation (R113, R114). -/
theorem execOvf_cur {s t : State} (h6 : s.cfg.nCh ≤ 6) (hc : s.cur.toNat ≤ s.cfg.nCh) (h : execOvf s = .next t) :
    t.cur = s.cur ∨ t.cur.toNat = nextSlot s.cfg s.cur.toNat := by
  obtain ⟨old, -, ⟨-, rfl⟩ | ⟨-, -, hbegin⟩ | ⟨-, rfl⟩⟩ := execOvf_next h
  · exact .inl rfl
  · exact .inr (State.leftSlot_beginSlot_counters h6 hc hbegin).1
  · exact .inl rfl

theorem exec_command_cur {i : Instr} (hc : i.isCommand = true) {s t : State} (h : exec i s = .next t) :
    t.cur = s.cur ∧ t.cfg = s.cfg := by
  obtain ⟨u, hu, ht⟩ := exec_command_next hc h
  have hframe : u.cur = s.cur ∧ u.cfg = s.cfg := by
    rcases hu with rfl | ⟨op, acc, v, hr⟩
    · exact ⟨rfl, rfl⟩
    · obtain ⟨hcfg, hcur, -⟩ := MicroOp.run_frame hr
      exact ⟨hcur, hcfg⟩
  rcases ht with ⟨w, rfl⟩ | ⟨-, n, acc, rfl⟩ <;> exact hframe

/-- A step that is no reset leaves the parameters, and moves the cursor in a handler run only. -/
theorem step_cur {s t : State} (hok : InFlightOk s) (h6 : s.cfg.nCh ≤ 6) (hc : s.cur.toNat ≤ s.cfg.nCh)
    (h : step s = .next t) (hrst : s.nextTurn ≠ .rst) :
    t.cfg = s.cfg ∧ (t.cur = s.cur ∨ (s.ovfPend = true ∧ t.cur.toNat = nextSlot s.cfg s.cur.toNat)) := by
  obtain ⟨ws, ts, n, rfl | rfl | ⟨hpend, hovf⟩ | htick | ⟨i, hcmd, hi⟩⟩ := step_next_of_inFlightOk hok h hrst
  · exact ⟨rfl, .inl rfl⟩
  · exact ⟨rfl, .inl rfl⟩
  · refine ⟨by rw [execOvf_frame hovf]; rfl, ?_⟩
    exact (execOvf_cur (s := s.opStart ws ts n) h6 hc hovf).imp_right fun hnext => ⟨hpend, hnext⟩
  · rw [exec_tick_frame htick]
    exact ⟨rfl, .inl rfl⟩
  · obtain ⟨hcur, hcfg⟩ := exec_command_cur hcmd hi
    exact ⟨hcfg, .inl hcur⟩

end Sys2Proof.Machine

section

open Sys2Proof.Machine

/-- Settles O32: a TICK by its three cases, and runs of ticks by induction on their number, the last one across the
boundary. -/
theorem tickCounts : Obligations.TickCounts := by
  refine ⟨fun s hp => ?_, fun s hp ht ho => ⟨execTimes_tick_counts hp ht, ?_⟩⟩
  · by_cases ht : s.tmrOn = true
    · by_cases hc : s.cnt = 255
      · rw [exec_tick_wraps hp ht hc, if_pos ht, if_pos hc]
      · rw [exec_tick_counts hp ht hc, if_pos ht, if_neg hc]
    · rw [exec_tick_stopped hp (by simpa using ht), if_neg ht]
  · rw [execTimes_tick_wraps hp ht, ho]

/-- Settles O34: each of R110's three outcomes (`execOvf_loads`, `execOvf_counts`, `execOvf_ends`), the last with the
two ways a slot begins. -/
theorem handlerSteps : Obligations.HandlerSteps := by
  intro s old h6 hc hs
  refine ⟨execOvf_loads hs, execOvf_counts hs, fun hi => ⟨fun hlast => ?_, fun new hlt hnew => ?_⟩⟩
  · rw [execOvf_ends hs hi (State.leftSlot_beginSlot_wrap old h6 hlast)]
    unfold State.leftSlot State.driveSlot
    cases old.pinActive <;> rfl
  · rw [execOvf_ends hs hi (State.leftSlot_beginSlot_move old h6 hlt hnew)]
    have hcur : s.cur + 1 = BitVec.ofNat 3 (s.cur.toNat + 1) := by simp [BitVec.ofNat_add]
    unfold State.leftSlot State.driveSlot
    rw [hcur]
    cases old.pinActive <;> cases new.pinActive <;> rfl

/-- Settles O50: of all operations the handler alone moves the cursor (`step_cur`), and on in the rotation, which stays
in range. -/
theorem cursorRotates : Obligations.CursorRotates := by
  intro s t hok h6 hc h hrst
  obtain ⟨hcfg, hcur⟩ := step_cur hok h6 hc h hrst
  refine ⟨?_, hcur⟩
  rw [hcfg]
  rcases hcur with hcur | ⟨-, hcur⟩
  · rwa [hcur]
  · exact hcur ▸ nextSlot_le s.cfg _

end

/-! SUPPORT. Slots in the reference timing, while the host takes no micro-step (spec/41_scheduler.md R116 to R119). From
any state in a slot the ticks left to its end are known (`ticksLeft`), and a tick takes one off or ends the slot. -/

namespace Sys2Proof.Machine

/-! ### One tick of the reference timing (R119) -/

theorem refTicks_one (s : State) : refTicks 1 s = refTick s := by
  rw [refTicks_succ]
  cases refTick s <;> rfl

theorem refTick_counts {s : State} (hp : s.ovfPend = false) (ht : s.tmrOn = true) (hc : s.cnt ≠ 255) :
    refTick s = .next { s with now := s.now + 1, cnt := s.cnt + 1 } := by
  rw [refTick, exec_tick_counts hp ht hc]
  exact if_neg (by simp [hp])

/-- The state in which the handler runs: a tick has wrapped the counter and raised the overflow. -/
def State.atOverflow (s : State) : State := { s with now := s.now + 1, cnt := 0, ovfPend := true }

/-- At the boundary the handler runs in the same instant. -/
theorem refTick_wraps {s : State} (hp : s.ovfPend = false) (ht : s.tmrOn = true) (ho : s.ovie = true)
    (hc : s.cnt = 255) : refTick s = exec .ovf s.atOverflow := by
  simpa [hc, refTicks_one, State.atOverflow] using refTicks_to_overflow s hp ht ho

theorem byte_succ_toNat {b : Byte} (h : b.toNat ≤ 254) : (b + 1).toNat = b.toNat + 1 := by
  rw [BitVec.toNat_add]
  exact Nat.mod_eq_of_lt (show b.toNat + 1 < 256 by omega)

/-! ### The ticks left -/

/-- The ticks to the end of slot `sl`: to the next overflow if its blocks have passed, else to the one that loads the
remainder, and then the remainder's. -/
def ticksLeft (s : State) (sl : Slot) : Nat :=
  if sl.tickBlocks.toNat ≤ s.iter.toNat then 256 - s.cnt.toNat
  else (256 - s.cnt.toNat) + 256 * (sl.tickBlocks.toNat - 1 - s.iter.toNat) + (256 - sl.remainder.toNat)

theorem ticksLeft_passed {s : State} {sl : Slot} (h : sl.tickBlocks.toNat ≤ s.iter.toNat) :
    ticksLeft s sl = 256 - s.cnt.toNat := if_pos h

theorem ticksLeft_counting {s : State} {sl : Slot} (h : s.iter.toNat < sl.tickBlocks.toNat) :
    ticksLeft s sl =
      (256 - s.cnt.toNat) + 256 * (sl.tickBlocks.toNat - 1 - s.iter.toNat) + (256 - sl.remainder.toNat) :=
  if_neg h.not_ge

theorem ticksLeft_pos (s : State) (sl : Slot) : 0 < ticksLeft s sl := by
  unfold ticksLeft
  split <;> omega

/-- Where a slot begins, all its ticks are left (R116, R119). -/
theorem ticksLeft_of_begins {s : State} (h : SlotBegins s) (sl : Slot) :
    ticksLeft s sl = slotTicks sl.tickBlocks sl.remainder := by
  obtain ⟨-, -, -, hcnt, hiter⟩ := h
  have hcnt0 : s.cnt.toNat = 0 := by rw [hcnt]; rfl
  have hiter0 : s.iter.toNat = 0 := by rw [hiter]; rfl
  by_cases hzero : sl.tickBlocks = 0
  · rw [slotTicks, if_pos hzero, ticksLeft_passed (by rw [hzero]; exact Nat.zero_le _), hcnt0]
  · have hpos : 0 < sl.tickBlocks.toNat := Nat.pos_of_ne_zero fun h0 => hzero (BitVec.eq_of_toNat_eq h0)
    rw [slotTicks, if_neg hzero, ticksLeft_counting (hiter0 ▸ hpos), hcnt0, hiter0]
    omega

/-! ### A slot under way -/

/-- The timer runs slot `sl` in a whole table: no overflow is pending, and neither the slot's blocks nor the count of
them can make `iter` wrap (R115). -/
structure SlotUnderWay (s : State) (sl : Slot) : Prop where
  timer_on : s.tmrOn = true
  ovie_on : s.ovie = true
  no_pend : s.ovfPend = false
  channels : s.cfg.nCh ≤ 6
  table_length : s.table.length = s.cfg.nCh + 1
  cur_range : s.cur.toNat ≤ s.cfg.nCh
  slot : s.slot s.cur.toNat = .ok sl
  iter_range : s.iter.toNat ≤ 254
  blocks_range : sl.tickBlocks.toNat ≤ 254

/-- From `s` to `u` time has passed within a slot: `n` ticks that moved only the two counters and the timer's port. -/
def SlotGoesOn (n : Nat) (s u : State) : Prop :=
  u = { s with now := s.now + n, cnt := u.cnt, iter := u.iter, reqs := u.reqs }

theorem SlotGoesOn.trans {m n : Nat} {s u v : State} (hsu : SlotGoesOn m s u) (huv : SlotGoesOn n u v) :
    SlotGoesOn (m + n) s v := by
  unfold SlotGoesOn at hsu huv ⊢
  rw [hsu] at huv
  rw [huv, Nat.add_assoc]

/-- From `s` to `t` the slot under way has ended after `n` ticks and the next of the rotation has begun; an active
slot's pin has gone low, unless the next one is active on the same pin. -/
structure SlotEnds (n : Nat) (s t : State) : Prop where
  begins : SlotBegins t
  cur : t.cur.toNat = nextSlot s.cfg s.cur.toNat
  now : t.now = s.now + n
  table : t.table = s.table
  cfg : t.cfg = s.cfg
  pin_low : ∀ old, s.slot s.cur.toNat = .ok old → old.pinActive = true →
    (∀ new, s.slot t.cur.toNat = .ok new → new.pinActive = true → new.pinId ≠ old.pinId) →
    t.pinLevel old.pinId = .driven .low

theorem SlotGoesOn.ends {m n : Nat} {s u t : State} (hgo : SlotGoesOn m s u) (hend : SlotEnds n u t) :
    SlotEnds (m + n) s t := by
  rw [hgo] at hend
  exact { hend with now := hend.now.trans (Nat.add_assoc ..) }

section
variable {s : State} {sl : Slot} (h : SlotUnderWay s sl)
include h

theorem SlotUnderWay.goesOn {n : Nat} {u : State} (hgo : SlotGoesOn n s u) (hi : u.iter.toNat ≤ 254) :
    SlotUnderWay u sl := by
  rw [hgo]
  exact { h with iter_range := hi }

/-- A tick that is not a slot's last takes one off what is left: it counts, or its overflow counts a block or loads the
remainder (R110 steps 2 and 4). -/
theorem SlotUnderWay.refTick_goesOn (hleft : 1 < ticksLeft s sl) :
    ∃ u, refTick s = .next u ∧ SlotGoesOn 1 s u ∧ u.iter.toNat ≤ 254 ∧ ticksLeft u sl + 1 = ticksLeft s sl := by
  have hsucc : (s.iter + 1).toNat = s.iter.toNat + 1 := byte_succ_toNat h.iter_range
  have hblocks := h.blocks_range
  by_cases hc : s.cnt = 255
  · have hcnt : s.cnt.toNat = 255 := by rw [hc]; rfl
    have hcounting : s.iter.toNat < sl.tickBlocks.toNat := by
      by_contra hpassed
      rw [ticksLeft_passed (by omega)] at hleft
      omega
    rw [ticksLeft_counting hcounting, refTick_wraps h.no_pend h.timer_on h.ovie_on hc]
    by_cases heq : s.iter + 1 = sl.tickBlocks
    · refine ⟨_, execOvf_loads (s := s.atOverflow) h.slot heq, ?_⟩
      have hlast : sl.tickBlocks.toNat = s.iter.toNat + 1 := heq ▸ hsucc
      have hiter : (s.atOverflow.enterHandler.timerLoad sl.remainder).iter.toNat = s.iter.toNat + 1 := hsucc
      refine ⟨by rw [SlotGoesOn, h.no_pend]; rfl, by omega, ?_⟩
      rw [ticksLeft_passed (by omega), State.timerLoad_cnt]
      omega
    · have hlt : (s.iter + 1).toNat < sl.tickBlocks.toNat :=
        lt_of_le_of_ne (by omega) fun he => heq (BitVec.eq_of_toNat_eq he)
      refine ⟨_, execOvf_counts (s := s.atOverflow) h.slot hlt, ?_⟩
      have hiter : s.atOverflow.enterHandler.iter.toNat = s.iter.toNat + 1 := hsucc
      have hzero : s.atOverflow.enterHandler.cnt.toNat = 0 := rfl
      refine ⟨by rw [SlotGoesOn, h.no_pend]; rfl, by omega, ?_⟩
      rw [ticksLeft_counting (by omega)]
      omega
  · have hcnt : (s.cnt + 1).toNat = s.cnt.toNat + 1 := byte_succ_toNat (by bv_omega)
    refine ⟨_, refTick_counts h.no_pend h.timer_on hc, rfl, h.iter_range, ?_⟩
    simp only [ticksLeft, hcnt]
    split <;> omega

/-- A slot's last tick ends it and begins the next one (R110 step 3). -/
theorem SlotUnderWay.refTick_ends (hleft : ticksLeft s sl = 1) : ∃ t, refTick s = .next t ∧ SlotEnds 1 s t := by
  have hpassed : sl.tickBlocks.toNat ≤ s.iter.toNat := by
    by_contra hcounting
    rw [ticksLeft_counting (by omega)] at hleft
    omega
  rw [ticksLeft_passed hpassed] at hleft
  have hc : s.cnt = 255 := BitVec.eq_of_toNat_eq (show s.cnt.toNat = 255 by omega)
  have hend : sl.tickBlocks.toNat < (s.iter + 1).toNat := by
    rw [byte_succ_toNat h.iter_range]
    omega
  obtain ⟨t, hb⟩ := State.leftSlot_beginSlot_total (s := s.atOverflow) sl h.channels h.cur_range h.table_length
  obtain ⟨hcur, hiter, hcnt⟩ := State.leftSlot_beginSlot_counters (s := s.atOverflow) h.channels h.cur_range hb
  have hexec := execOvf_ends (s := s.atOverflow) h.slot hend hb
  have hframe := execOvf_frame hexec
  refine ⟨t, (refTick_wraps h.no_pend h.timer_on h.ovie_on hc).trans hexec, ?_⟩
  refine { begins := ?_, cur := hcur, now := ?_, table := ?_, cfg := ?_, pin_low := fun old hold hact hnew => ?_ }
  · refine ⟨?_, ?_, ?_, hcnt, hiter⟩ <;> rw [hframe]
    exacts [h.timer_on, h.ovie_on]
  · rw [hframe]; rfl
  · rw [hframe]; rfl
  · rw [hframe]; rfl
  · obtain rfl : sl = old := Except.ok.inj (h.slot.symm.trans hold)
    exact State.leftSlot_beginSlot_pinLevel (s := s.atOverflow) hb hact hnew

/-- Before its last tick a slot goes on, with one tick less left after each. -/
theorem SlotUnderWay.refTicks_goesOn (n : Nat) (hn : n < ticksLeft s sl) :
    ∃ u, refTicks n s = .next u ∧ SlotGoesOn n s u ∧ SlotUnderWay u sl ∧ ticksLeft u sl + n = ticksLeft s sl := by
  induction n with
  | zero => exact ⟨s, rfl, rfl, h, rfl⟩
  | succ n ih =>
    obtain ⟨u, hu, hgo, hway, hleft⟩ := ih (by omega)
    obtain ⟨v, hv, hgo', hiter, hleft'⟩ := hway.refTick_goesOn (by omega)
    refine ⟨v, ?_, hgo.trans hgo', hway.goesOn hgo' hiter, by omega⟩
    rw [refTicks_add n 1 _ _ hu, refTicks_one, hv]

/-- A slot ends after exactly the ticks that were left. -/
theorem SlotUnderWay.refTicks_ends :
    ∃ t, refTicks (ticksLeft s sl) s = .next t ∧ SlotEnds (ticksLeft s sl) s t := by
  obtain ⟨n, hn⟩ := Nat.exists_eq_add_of_lt (ticksLeft_pos s sl)
  rw [Nat.zero_add] at hn
  obtain ⟨u, hu, hgo, hway, hleft⟩ := h.refTicks_goesOn n (by omega)
  obtain ⟨t, ht, hend⟩ := hway.refTick_ends (by omega)
  refine ⟨t, ?_, hn ▸ hgo.ends hend⟩
  rw [hn, refTicks_add n 1 _ _ hu, refTicks_one, ht]

end

/-! ### A slot from its beginning -/

/-- A slot that is stored is read with the same blocks and remainder: slot 0's flag alone is hard-wired (R22). -/
theorem State.slot_of_table {s : State} {i : Nat} {sl : Slot} (h : s.table[i]? = some sl) :
    ∃ old, s.slot i = .ok old ∧ old.tickBlocks = sl.tickBlocks ∧ old.remainder = sl.remainder := by
  refine ⟨_, State.slot_ok_iff.mpr ⟨sl, h, rfl⟩, ?_⟩
  split <;> exact ⟨rfl, rfl⟩

section
variable {s : State} {sl : Slot} (hb : SlotBegins s) (h6 : s.cfg.nCh ≤ 6) (hlen : s.table.length = s.cfg.nCh + 1)
  (hsl : s.table[s.cur.toNat]? = some sl) (hblocks : sl.tickBlocks.toNat ≤ 254)
include hb h6 hlen hsl hblocks

/-- At the beginning of a slot it is under way, with all its ticks left. -/
theorem SlotBegins.underWay :
    ∃ old, SlotUnderWay s old ∧ ticksLeft s old = slotTicks sl.tickBlocks sl.remainder ∧
      ∀ u, SlotBegins u → ticksLeft u old = slotTicks sl.tickBlocks sl.remainder := by
  obtain ⟨old, hold, hB, hR⟩ := State.slot_of_table hsl
  obtain ⟨htmr, hovie, hpend, -, hiter⟩ := id hb
  obtain ⟨hcur, -⟩ := List.getElem?_eq_some_iff.mp hsl
  have hticks (u : State) (hu : SlotBegins u) : ticksLeft u old = slotTicks sl.tickBlocks sl.remainder := by
    rw [ticksLeft_of_begins hu, hB, hR]
  exact ⟨old,
    { timer_on := htmr, ovie_on := hovie, no_pend := hpend, channels := h6, table_length := hlen
      cur_range := by omega
      slot := hold
      iter_range := by rw [hiter]; exact Nat.zero_le _
      blocks_range := hB ▸ hblocks },
    hticks s hb, hticks⟩

/-- Within its length a slot goes on, and does not begin again. -/
theorem SlotBegins.refTicks_within (n : Nat) (hn : n < slotTicks sl.tickBlocks sl.remainder) :
    ∃ u, refTicks n s = .next u ∧ SlotGoesOn n s u ∧ (0 < n → ¬ SlotBegins u) := by
  obtain ⟨old, hway, hleft, hall⟩ := hb.underWay h6 hlen hsl hblocks
  obtain ⟨u, hu, hgo, -, hleft'⟩ := hway.refTicks_goesOn n (by omega)
  refine ⟨u, hu, hgo, fun hpos hbegins => ?_⟩
  have hagain := hall u hbegins
  omega

theorem SlotBegins.refTicks_ends : ∃ t, refTicks (slotTicks sl.tickBlocks sl.remainder) s = .next t ∧
    SlotEnds (slotTicks sl.tickBlocks sl.remainder) s t := by
  obtain ⟨old, hway, hleft, -⟩ := hb.underWay h6 hlen hsl hblocks
  exact hleft ▸ hway.refTicks_ends

end

end Sys2Proof.Machine

section

open Sys2Proof Sys2Proof.Machine

/-- Settles O53: where a slot begins, `T(B, R)` ticks are left of it (`ticksLeft_of_begins`), and it ends after exactly
these. -/
theorem slotDuration : Obligations.SlotDuration := by
  intro s sl hb h6 hlen hsl hblocks
  refine ⟨fun n hn => ?_, ?_⟩
  · obtain ⟨u, hu, hgo, -⟩ := hb.refTicks_within h6 hlen hsl hblocks n hn
    refine ⟨u, hu, ?_⟩
    rw [hgo]
    exact ⟨rfl, rfl, rfl, rfl⟩
  · obtain ⟨t, ht, hend⟩ := hb.refTicks_ends h6 hlen hsl hblocks
    exact ⟨t, ht, hend.begins, hend.cur, hend.now, hend.table, hend.cfg⟩

end

/-! SUPPORT. Pulses, frames and the first frame in the reference timing (spec/41_scheduler.md R115, R120 to R122). -/

namespace Sys2Proof.Machine

/-! ### A pulse (R120) -/

/-- The slot of an encoded width lasts `2 a + 1` ticks, `a` the adjusted width (R92, R93, R119). -/
theorem slotTicks_enc_default (w : Int) :
    slotTicks (enc Config.default w).1 (enc Config.default w).2 = 2 * adjustedUs Config.default w + 1 := by
  have hB := enc_default_fst w
  have hR := enc_default_snd w
  have hpos := (enc_default_fst_range w).1
  have hne : (enc Config.default w).1 ≠ 0 := fun h0 => by rw [h0] at hpos; exact absurd hpos (by decide)
  rw [slotTicks, if_neg hne]
  omega

/-! ### A frame (R121) -/

/-- The slots before slot `i` have passed in their time since slot 0 began at `s`, which has not begun again meanwhile;
the slot at `c` now begins. -/
def FrameReaches (s : State) (i c : Nat) : Prop :=
  (∀ n, 0 < n → n < frameTicks (s.table.take i) → ∃ u, refTicks n s = .next u ∧ ¬ (SlotBegins u ∧ u.cur = 0)) ∧
  ∃ t, refTicks (frameTicks (s.table.take i)) s = .next t ∧ SlotBegins t ∧ t.cur.toNat = c ∧
    t.now = s.now + frameTicks (s.table.take i) ∧ t.table = s.table ∧ t.cfg = s.cfg

theorem frameTicks_take_succ {table : List Slot} {i : Nat} {sl : Slot} (h : table[i]? = some sl) :
    frameTicks (table.take (i + 1)) = frameTicks (table.take i) + slotTicks sl.tickBlocks sl.remainder := by
  simp [frameTicks, List.take_add_one, h]

section
variable {s : State} (h6 : s.cfg.nCh ≤ 6) (hlen : s.table.length = s.cfg.nCh + 1)
  (hblocks : ∀ sl ∈ s.table, sl.tickBlocks.toNat ≤ 254)
include h6 hlen hblocks

/-- One slot further: slot 0 does not begin again within slot `i`, not at slot 0's own ticks either. -/
theorem FrameReaches.next {i : Nat} (h : FrameReaches s i i) (hi : i ≤ s.cfg.nCh) :
    FrameReaches s (i + 1) (nextSlot s.cfg i) := by
  obtain ⟨hbefore, t, ht, hb, hcur, hnow, htable, hcfg⟩ := h
  have hsl : t.table[t.cur.toNat]? = some (s.table[i]'(by omega)) := by
    rw [hcur, htable]
    exact List.getElem?_eq_getElem (by omega)
  have hsum := frameTicks_take_succ (hcur ▸ htable ▸ hsl)
  have h6t : t.cfg.nCh ≤ 6 := hcfg ▸ h6
  have hlent : t.table.length = t.cfg.nCh + 1 := by rw [htable, hcfg, hlen]
  have hB := hblocks _ (List.getElem_mem (by omega : i < s.table.length))
  refine ⟨fun n hpos hn => ?_, ?_⟩
  · by_cases hold : n < frameTicks (s.table.take i)
    · exact hbefore n hpos hold
    · obtain ⟨m, rfl⟩ := Nat.exists_eq_add_of_le (Nat.le_of_not_lt hold)
      obtain ⟨u, hu, hgo, hnot⟩ := hb.refTicks_within h6t hlent hsl hB m (by omega)
      refine ⟨u, (refTicks_add _ m _ _ ht).trans hu, fun ⟨hbegins, hzero⟩ => ?_⟩
      have hcuru : u.cur = t.cur := by rw [hgo]
      obtain rfl : i = 0 := by rw [← hcur, ← hcuru, hzero]; rfl
      exact hnot (by simpa [frameTicks] using hpos) hbegins
  · obtain ⟨v, hv, hend⟩ := hb.refTicks_ends h6t hlent hsl hB
    rw [hsum]
    refine ⟨v, (refTicks_add _ _ _ _ ht).trans hv, hend.begins, ?_, ?_, hend.table.trans htable, hend.cfg.trans hcfg⟩
    · rw [hend.cur, hcur, hcfg]
    · rw [hend.now, hnow, Nat.add_assoc]

theorem SlotBegins.frameReaches (hb : SlotBegins s) (hcur : s.cur = 0) (i : Nat) (hi : i ≤ s.cfg.nCh) :
    FrameReaches s i i := by
  induction i with
  | zero => exact ⟨fun n hpos hn => absurd hn hpos.not_gt, s, rfl, hb, by rw [hcur]; rfl, rfl, rfl, rfl⟩
  | succ i ih =>
    have hnext := (ih (by omega)).next h6 hlen hblocks (by omega)
    rwa [nextSlot, if_neg (by omega)] at hnext

end

/-! ### The first frame (R122, R142) -/

/-- A micro-step of ATTACH's activation, from wherever the command stands. -/
theorem exec_attach_activates {s u : State} {ch : BitVec 4} {pin : BitVec 7} {k : Nat} {acc v : Half} {op : MicroOp}
    (hok : chanOk s.cfg ch = true) (hpin : pinOk s.cfg pin = true)
    (hpos : s.position (.attach ch pin) (attachFirst s) (ch.setWidth 16) = some (k, acc))
    (hk : activateSteps[k]? = some op) (hr : MicroOp.run s acc op = .ok (u, v)) :
    exec (.attach ch pin) s =
      .next (u.afterMicroStep (.attach ch pin) (k + 1) (attachSteps s.cfg ch pin).length v) := by
  obtain ⟨hlt, -⟩ := List.getElem?_eq_some_iff.mp hk
  exact State.perform_step hpos (by simp [Instr.wellFormed, hok, hpin])
    ((List.getElem?_append_left hlt).trans hk) hr

/-- ATTACH in flight before its micro-step `n`, with the answer it will give (R37, R141). -/
def State.attaching (s : State) (ch : BitVec 4) (pin : BitVec 7) (n : Nat) : State :=
  s.setInFlight (.attach ch pin) n (ch.setWidth 16)

/-- Its first three micro-steps leave ATTACH in flight, since a fourth is to come. -/
theorem exec_attach_goesOn {s u : State} {ch : BitVec 4} {pin : BitVec 7} {k : Nat} {acc v : Half} {op : MicroOp}
    (hok : chanOk s.cfg ch = true) (hpin : pinOk s.cfg pin = true)
    (hpos : s.position (.attach ch pin) (attachFirst s) (ch.setWidth 16) = some (k, acc))
    (hk : activateSteps[k]? = some op) (hr : MicroOp.run s acc op = .ok (u, v)) (hlt : k < 3) :
    exec (.attach ch pin) s = .next (u.setInFlight (.attach ch pin) (k + 1) v) := by
  have hmore : k + 1 < (attachSteps s.cfg ch pin).length := by
    have hlen : (attachSteps s.cfg ch pin).length = 4 + (bindSteps s.cfg ch pin).length := List.length_append
    omega
  rw [exec_attach_activates hok hpin hpos hk hr, State.afterMicroStep, if_pos hmore]

/-- The whole activation configures the timer, loads 0, enables the interrupt and notes the start (R142); beyond that it
moves the response port and log and the command in flight only. -/
theorem execTimes_attach_activates {s : State} {ch : BitVec 4} {pin : BitVec 7} (hok : chanOk s.cfg ch = true)
    (hpin : pinOk s.cfg pin = true) (hidle : s.inFlight = none) (hstarted : s.started = false) :
    ∃ t, execTimes 4 (.attach ch pin) s = .next t ∧
      t = { (s.timerConfig.timerLoad 0).ovfEnable.setStarted with
            rsp := t.rsp, responses := t.responses, inFlight := t.inFlight } := by
  have hpos : s.position (.attach ch pin) (attachFirst s) (ch.setWidth 16) = some (0, ch.setWidth 16) := by
    rw [State.position_fresh hidle, attachFirst, hstarted]
    rfl
  have hconfig : exec (.attach ch pin) s = .next (s.timerConfig.attaching ch pin 1) :=
    exec_attach_goesOn hok hpin hpos rfl rfl (by decide)
  have hload : exec (.attach ch pin) (s.timerConfig.attaching ch pin 1) =
      .next ((s.timerConfig.timerLoad 0).attaching ch pin 2) :=
    exec_attach_goesOn (u := (s.timerConfig.attaching ch pin 1).timerLoad 0) hok hpin (State.position_resumed rfl ..)
      rfl rfl (by decide)
  have henable : exec (.attach ch pin) ((s.timerConfig.timerLoad 0).attaching ch pin 2) =
      .next ((s.timerConfig.timerLoad 0).ovfEnable.attaching ch pin 3) :=
    exec_attach_goesOn (u := ((s.timerConfig.timerLoad 0).attaching ch pin 2).ovfEnable) hok hpin
      (State.position_resumed rfl ..) rfl rfl (by decide)
  have hstart := exec_attach_activates (s := (s.timerConfig.timerLoad 0).ovfEnable.attaching ch pin 3) hok hpin
    (State.position_resumed rfl ..) rfl rfl
  have htwo := execTimes_two hconfig hload
  exact ⟨_, (execTimes_add 2 2 _ _ _ htwo).trans (execTimes_two henable hstart), State.afterMicroStep_frame ..⟩

/-- A handler run short of the end of the slot counts the overflow, whether or not it loads the remainder. -/
theorem execOvf_iter {s : State} {old : Slot} (hs : s.slot s.cur.toNat = .ok old)
    (hle : (s.iter + 1).toNat ≤ old.tickBlocks.toNat) : ∃ t, exec .ovf s = .next t ∧ t.iter = s.iter + 1 := by
  rcases hle.lt_or_eq with hlt | heq
  · exact ⟨_, execOvf_counts hs hlt, rfl⟩
  · exact ⟨_, execOvf_loads hs (BitVec.eq_of_toNat_eq heq), rfl⟩

end Sys2Proof.Machine

section

open Sys2Proof Sys2Proof.Machine

/-- Settles O54: the slot of an encoded width lasts `2 a + 1` ticks (`slotTicks_enc_default`), which leave the pins, and
its end drives its pin low. -/
theorem pulseWidthOnThePin : Obligations.PulseWidthOnThePin := by
  intro s sl w hb hcfg hlen hcur hsl hact henc hhigh
  have h6 : s.cfg.nCh ≤ 6 := by rw [hcfg]; decide
  have hlen' : s.table.length = s.cfg.nCh + 1 := by rw [hcfg, hlen]; rfl
  obtain ⟨hB, hR⟩ := Prod.ext_iff.mp henc
  have hblocks : sl.tickBlocks.toNat ≤ 254 := by
    rw [show sl.tickBlocks = _ from hB]
    exact enc_blocks_le configValid_default w
  have hticks : slotTicks sl.tickBlocks sl.remainder = 2 * adjustedUs Config.default w + 1 := by
    rw [← slotTicks_enc_default w, ← hB, ← hR]
  rw [← hticks]
  refine ⟨fun n hn => ?_, ?_⟩
  · obtain ⟨u, hu, hgo, -⟩ := hb.refTicks_within h6 hlen' hsl hblocks n hn
    refine ⟨u, hu, ?_⟩
    rw [hgo]
    exact hhigh
  · obtain ⟨t, ht, hend⟩ := hb.refTicks_ends h6 hlen' hsl hblocks
    have hslot : s.slot s.cur.toNat = .ok sl := (State.slot_servo (by omega)).mpr hsl
    exact ⟨t, ht, hend.cur, hend.pin_low sl hslot hact⟩

/-- Settles O55: slot by slot (`FrameReaches.next`), the last slot's end beginning slot 0 again. -/
theorem frameDuration : Obligations.FrameDuration := by
  refine ⟨by decide, fun s hb h6 hlen hcur hblocks => ?_⟩
  have hlast := (hb.frameReaches h6 hlen hblocks hcur s.cfg.nCh le_rfl).next h6 hlen hblocks le_rfl
  rw [nextSlot, if_pos (by omega), FrameReaches, ← hlen, List.take_length] at hlast
  obtain ⟨hbefore, t, ht, hbegins, hcurt, hnow, htable, -⟩ := hlast
  exact ⟨hbefore, t, ht, hbegins, BitVec.eq_of_toNat_eq hcurt, htable, hnow⟩

/-- Settles O56: the activation's micro-steps begin slot 0 (`execTimes_attach_activates`); the counter is then 256 ticks
from its boundary, and the sync slot has at least one block to count there (R10). -/
theorem firstFrame : Obligations.FirstFrame := by
  intro s ch pin hinv hok hpin hidle hstarted hcur hiter
  obtain ⟨t, ht, hframe⟩ := execTimes_attach_activates hok hpin hidle hstarted
  have hb : SlotBegins t := by
    rw [hframe]
    exact ⟨rfl, rfl, rfl, rfl, hiter⟩
  have hcurt : t.cur = 0 := by rw [hframe]; exact hcur
  have htable : t.table = s.table := by rw [hframe]; rfl
  obtain ⟨htmr, hovie, hpend, hcnt, hitert⟩ := id hb
  have hzero : t.cnt.toNat = 0 := by rw [hcnt]; rfl
  refine ⟨t, ht, hb, hcurt, by rw [hframe]; rfl, htable, fun n hn => ?_, ?_⟩
  · exact ⟨_, refTicks_below_overflow n t hpend htmr (by omega), hitert, rfl⟩
  · obtain ⟨-, -, -, hsync, -⟩ := hinv.cfg_valid
    have hover := refTicks_to_overflow t hpend htmr hovie
    rw [hzero] at hover
    rw [hover]
    have hslot : t.slot t.cur.toNat = .ok (Slot.resetSync s.cfg) := by
      rw [hcurt]
      exact State.slot_ok_iff.mpr ⟨_, htable ▸ hinv.sync_slot, rfl⟩
    have hblocks : (t.iter + 1).toNat ≤ (Slot.resetSync s.cfg).tickBlocks.toNat := by
      rw [hitert]
      show 1 ≤ syncBlocks s.cfg % 256
      omega
    obtain ⟨u, hu, hcount⟩ := execOvf_iter (s := { t with now := t.now + 256, cnt := 0, ovfPend := true }) hslot hblocks
    exact ⟨u, hu, hcount.trans (by rw [show _ = (0 : Byte) from hitert]; rfl)⟩

/-- Settles O57: the slot under way ends after the ticks left of it, fewer than 65536 of them, and with at least one
servo channel the next slot is another one. -/
theorem rotationNeverStalls : Obligations.RotationNeverStalls := by
  intro s hinv htmr hovie hpend
  obtain ⟨⟨h1, h6⟩, -⟩ := hinv.cfg_valid
  have hcur := hinv.cur_range
  obtain ⟨old, hold, -⟩ := State.slot_of_table
    (List.getElem?_eq_getElem (l := s.table) (i := s.cur.toNat) (by rw [hinv.table_length]; omega))
  have hblocks := hinv.slot_blocks_le hold
  have hway : SlotUnderWay s old :=
    { timer_on := htmr, ovie_on := hovie, no_pend := hpend, channels := h6, table_length := hinv.table_length
      cur_range := hcur, slot := hold, iter_range := hinv.iter_range, blocks_range := hblocks }
  obtain ⟨t, ht, hend⟩ := hway.refTicks_ends
  refine ⟨_, t, ticksLeft_pos s old, ?_, ht, fun heq => ?_⟩
  · unfold ticksLeft
    split <;> omega
  · have hnext := hend.cur
    rw [heq, nextSlot] at hnext
    split at hnext <;> omega

end

/-! SUPPORT. The micro-steps of ATTACH (spec/42_channel_registration.md R141, R142), and the invariant
`PinsMadeOutput`, operation by operation (R171). -/

namespace Sys2Proof.Machine

/-! ### The micro-steps of ATTACH -/

section
variable {c : Config} {ch : BitVec 4} (hch : ch ≠ 0) (pin : BitVec 7)
include hch

theorem bindSteps_byRule (hc : c.writeOrder = .byRule) : bindSteps c ch pin =
    [.pinModeOutput pin, .writePinId (slotIndex ch) pin, .writePinActive (slotIndex ch) true] := by
  simp [bindSteps, isInert_of_ne hch, hc]

theorem bindSteps_swapped (hc : c.writeOrder = .swapped) : bindSteps c ch pin =
    [.pinModeOutput pin, .writePinActive (slotIndex ch) true, .writePinId (slotIndex ch) pin] := by
  simp [bindSteps, isInert_of_ne hch, hc]

end

/-- ACTIVATE's micro-steps touch the timer and the started flag only (R142). -/
theorem activateSteps_run_frame {s u : State} {acc v : Half} {op : MicroOp} (hop : op ∈ activateSteps)
    (hr : MicroOp.run s acc op = .ok (u, v)) :
    u = { s with started := u.started, cnt := u.cnt, tmrOn := u.tmrOn, ovie := u.ovie, ovfPend := u.ovfPend,
                 reqs := u.reqs } := by
  simp only [activateSteps, List.mem_cons, List.not_mem_nil, or_false] at hop
  rcases hop with rfl | rfl | rfl | rfl <;> cases hr <;> rfl

/-! ### The pins of the active slots (R117, R171) -/

/-- Every active servo slot's pin is an output. -/
def ActiveOutput (s : State) : Prop :=
  ∀ (i : Nat) (sl : Slot), 1 ≤ i → s.table[i]? = some sl → sl.pinActive = true → s.pinMode sl.pinId = .output

section
variable {s t : State} (h : ActiveOutput s)
include h

theorem ActiveOutput.of_table (htable : t.table = s.table)
    (hmode : ∀ p, s.pinMode p = .output → t.pinMode p = .output) : ActiveOutput t :=
  fun i sl hi hsl hact => hmode _ (h i sl hi (htable ▸ hsl) hact)

/-- A slot write keeps the active slots' pins outputs where the changed slot, if it is active, has an output pin. -/
theorem ActiveOutput.updateSlot {j : Nat} {f : Slot → Slot}
    (hf : ∀ sl, 1 ≤ j → s.table[j]? = some sl → (f sl).pinActive = true → s.pinMode (f sl).pinId = .output)
    (hu : s.updateSlot j f = .ok t) : ActiveOutput t := by
  rcases State.updateSlot_ok_iff.mp hu with ⟨-, rfl⟩ | ⟨hj, st, hst, rfl⟩
  · exact h
  · intro i sl hi hsl hact
    by_cases hij : i = j
    · subst hij
      obtain ⟨-, rfl⟩ : _ ∧ f st = sl := by simpa [List.getElem?_set] using hsl
      exact hf st hi hst hact
    · exact h i sl hi (by simpa [List.getElem?_set_ne (Ne.symm hij)] using hsl) hact

theorem ActiveOutput.updateSlot_map {j : Nat} {f : Slot → Slot} {a v : Half}
    (hr : (s.updateSlot j f).map (·, a) = .ok (t, v))
    (hf : ∀ sl, 1 ≤ j → s.table[j]? = some sl → (f sl).pinActive = true → s.pinMode (f sl).pinId = .output) :
    ActiveOutput t := by
  obtain ⟨u, hu, he⟩ := except_map_ok hr
  cases he
  exact h.updateSlot hf hu

end

/-- What a micro-step needs of the state it is taken in, so that the active slots' pins stay outputs: a slot is bound to
an output pin only, and is activated only where its pin is one. -/
def MicroOp.BindsOutput (s : State) : MicroOp → Prop
  | .writePinId _ p => s.pinMode p = .output
  | .writePinActive i true => ∀ sl, 1 ≤ i → s.table[i]? = some sl → s.pinMode sl.pinId = .output
  | _ => True

theorem ActiveOutput.microStep {s t : State} (h : ActiveOutput s) {acc v : Half} {op : MicroOp} (hop : op.BindsOutput s)
    (hr : MicroOp.run s acc op = .ok (t, v)) : ActiveOutput t := by
  cases op with
  | writePinId i p => exact h.updateSlot_map hr fun _ _ _ _ => hop
  | writePinActive i b =>
    cases b with
    | true => exact h.updateSlot_map hr fun sl hi hsl _ => hop sl hi hsl
    | false => exact h.updateSlot_map hr fun _ _ _ => nofun
  | writeTickBlocks i v => exact h.updateSlot_map hr fun sl hi hsl => h i sl hi hsl
  | writeRemainder i v => exact h.updateSlot_map hr fun sl hi hsl => h i sl hi hsl
  | readPinActive i => exact MicroOp.run_read hr (by simp) ▸ h
  | readTickBlocks i => exact MicroOp.run_read hr (by simp) ▸ h
  | readRemainder i => exact MicroOp.run_read hr (by simp) ▸ h
  | pinModeOutput p =>
    obtain ⟨-, -, -, -, -, hmode⟩ := MicroOp.run_effects hr
    cases hr
    exact h.of_table rfl hmode
  | _ => cases hr; exact h

/-! ### The invariant, of a command at its next micro-step -/

/-- The state shows what the micro-steps of command `i` before its `n`-th have bound, in the rules' order (R141): past
ATTACH's `PinModeOutput` its pin is an output, past `pin.id` its slot names it. -/
def BoundBy (s : State) : Instr → Nat → Prop
  | .attach ch pin, n => (5 ≤ n → s.pinMode pin = .output) ∧
      (6 ≤ n → ∀ sl, 1 ≤ ch.toNat → s.table[ch.toNat]? = some sl → sl.pinId = pin)
  | _, _ => True

theorem PinsMadeOutput.boundBy {s : State} (h : PinsMadeOutput s) {f : InFlight} (hf : s.inFlight = some f) :
    BoundBy s f.cmd f.next := by
  obtain ⟨cmd, n, acc⟩ := f
  cases cmd with
  | attach ch pin => exact ⟨h.attach_output ch pin n acc hf, fun hn sl => h.attach_named ch pin n acc sl hf hn⟩
  | _ => trivial

theorem pinsMadeOutput_iff {s : State} : PinsMadeOutput s ↔
    s.cfg.writeOrder = .byRule ∧ ActiveOutput s ∧ ∀ f, s.inFlight = some f → BoundBy s f.cmd f.next := by
  refine ⟨fun h => ⟨h.by_rule, h.active_output, fun f hf => h.boundBy hf⟩, fun ⟨hrule, hact, hfly⟩ => ?_⟩
  exact
    { by_rule := hrule
      active_output := hact
      attach_output := fun ch pin n acc hf => (hfly _ hf).1
      attach_named := fun ch pin n acc sl hf hn => (hfly _ hf).2 hn sl }

theorem PinsMadeOutput.answer {s : State} (h : PinsMadeOutput s) (w : Word) : PinsMadeOutput (s.answer w) :=
  { h with attach_output := nofun, attach_named := nofun }

/-- After a micro-step the command answers, or stays in flight with what it has bound. -/
theorem pinsMadeOutput_afterMicroStep {s : State} (hrule : s.cfg.writeOrder = .byRule) (hact : ActiveOutput s)
    {i : Instr} {n : Nat} (hb : BoundBy s i n) (total : Nat) (acc : Half) :
    PinsMadeOutput (s.afterMicroStep i n total acc) := by
  rcases s.afterMicroStep_cases i n total acc with ⟨-, he⟩ | ⟨-, he⟩
  · rw [he, pinsMadeOutput_iff]
    refine ⟨hrule, hact, ?_⟩
    rintro f ⟨⟩
    exact hb
  · rw [he, pinsMadeOutput_iff]
    exact ⟨hrule, hact, nofun⟩

/-- Wherever a command stands, its past micro-steps have bound what they bind. -/
theorem PinsMadeOutput.boundBy_position {s : State} (h : PinsMadeOutput s) {i : Instr} {first k : Nat} {acc0 acc : Half}
    (hfirst : BoundBy s i first) (hp : s.position i first acc0 = some (k, acc)) : BoundBy s i k := by
  unfold State.position at hp
  split at hp
  · cases hp; exact hfirst
  next f hf =>
    split at hp
    next hcmd => cases hp; exact hcmd ▸ h.boundBy hf
    · cases hp

/-- A command keeps the invariant where each of its micro-steps finds what it needs bound, and binds what the next ones
count on. -/
theorem PinsMadeOutput.perform {s t : State} (h : PinsMadeOutput s) {i : Instr} {prog : List MicroOp} {first : Nat}
    {acc0 : Half} (hfirst : BoundBy s i first)
    (hprog : ∀ k op, BoundBy s i k → prog[k]? = some op →
      op.BindsOutput s ∧ ∀ acc u v, MicroOp.run s acc op = .ok (u, v) → BoundBy u i (k + 1))
    (he : s.perform i prog first acc0 = .next t) : PinsMadeOutput t := by
  obtain ⟨k, acc, hpos, ⟨-, rfl⟩ | ⟨-, -, rfl⟩ | ⟨-, op, u, v, hop, hr, rfl⟩⟩ := State.perform_next he
  · exact h.answer _
  · exact h.answer _
  · obtain ⟨hbinds, hbound⟩ := hprog k op (h.boundBy_position hfirst hpos) hop
    obtain ⟨hcfg, -⟩ := MicroOp.run_frame hr
    exact pinsMadeOutput_afterMicroStep (hcfg ▸ h.by_rule) (ActiveOutput.microStep h.active_output hbinds hr)
      (hbound acc u v hr) _ _

/-- The commands other than ATTACH: it is enough that no micro-step binds or activates a slot. -/
theorem PinsMadeOutput.perform_of_bindsOutput {s t : State} (h : PinsMadeOutput s) {i : Instr} {prog : List MicroOp}
    {first : Nat} {acc0 : Half} (he : s.perform i prog first acc0 = .next t)
    (hprog : ∀ op ∈ prog, op.BindsOutput s) (hi : ∀ u n, BoundBy u i n) : PinsMadeOutput t :=
  h.perform (hi s first) (fun _ op _ hop => ⟨hprog op (List.mem_of_getElem? hop), fun _ u _ _ => hi u _⟩) he

theorem constructSteps_bindsOutput (s : State) : ∀ op ∈ constructSteps, op.BindsOutput s := by
  simp [constructSteps, MicroOp.BindsOutput]

theorem detachSteps_bindsOutput (s : State) (ch : BitVec 4) : ∀ op ∈ detachSteps ch, op.BindsOutput s := by
  unfold detachSteps
  split <;> simp [MicroOp.BindsOutput]

theorem attachedSteps_bindsOutput (s : State) (ch : BitVec 4) : ∀ op ∈ attachedSteps ch, op.BindsOutput s := by
  unfold attachedSteps
  split <;> simp [MicroOp.BindsOutput]

theorem writeUsSteps_bindsOutput (s : State) (c : Config) (ch : BitVec 4) (width : Half) :
    ∀ op ∈ writeUsSteps c ch width, op.BindsOutput s := by
  unfold writeUsSteps
  split
  · nofun
  · split <;> simp [MicroOp.BindsOutput]

theorem readUsSteps_bindsOutput (s : State) (ch : BitVec 4) : ∀ op ∈ readUsSteps ch, op.BindsOutput s := by
  unfold readUsSteps
  split <;> simp [MicroOp.BindsOutput]

/-! ### ATTACH, the operations and the step -/

/-- A new ATTACH begins before its `PinModeOutput`, with nothing bound yet. -/
theorem boundBy_attachFirst (s : State) (ch : BitVec 4) (pin : BitVec 7) :
    BoundBy s (.attach ch pin) (attachFirst s) := by
  have hle : attachFirst s ≤ 4 := by unfold attachFirst; split <;> decide
  exact ⟨fun hn => absurd hn (by omega), fun hn => absurd hn (by omega)⟩

theorem activateSteps_bindsOutput (s : State) : ∀ op ∈ activateSteps, op.BindsOutput s := by
  simp [activateSteps, MicroOp.BindsOutput]

/-- A write to the slot named that leaves it with the pin, which is an output, leaves all of it bound. -/
theorem boundBy_of_updateSlot_map {s u : State} {ch : BitVec 4} (hch : ch ≠ 0) {pin : BitVec 7} {f : Slot → Slot}
    {a v : Half} (houtput : s.pinMode pin = .output) (hf : ∀ sl, s.table[ch.toNat]? = some sl → (f sl).pinId = pin)
    (hr : (s.updateSlot (slotIndex ch) f).map (·, a) = .ok (u, v)) (n : Nat) : BoundBy u (.attach ch pin) n := by
  obtain ⟨u', hu, he⟩ := except_map_ok hr
  cases he
  rcases State.updateSlot_ok_iff.mp hu with ⟨h0, -⟩ | ⟨-, st, hst, rfl⟩
  · exact absurd h0 (slotIndex_ne_zero hch)
  · refine ⟨fun _ => houtput, fun _ sl _ hsl => ?_⟩
    obtain ⟨-, rfl⟩ : _ ∧ f st = sl := by simpa [List.getElem?_set, slotIndex] using hsl
    exact hf st hst

/-- In the rules' order each micro-step of ATTACH's step 2 finds what it needs, and binds what the next one counts
on. -/
theorem bindSteps_boundBy {s : State} {ch : BitVec 4} {pin : BitVec 7} {k : Nat} {op : MicroOp}
    (hrule : s.cfg.writeOrder = .byRule) (hb : BoundBy s (.attach ch pin) (k + 4))
    (hop : (bindSteps s.cfg ch pin)[k]? = some op) :
    op.BindsOutput s ∧ ∀ acc u v, MicroOp.run s acc op = .ok (u, v) → BoundBy u (.attach ch pin) (k + 4 + 1) := by
  obtain ⟨houtput, hnamed⟩ := hb
  by_cases hch : ch = 0
  · subst hch
    cases hop
  · rw [bindSteps_byRule hch pin hrule] at hop
    have hpos : 1 ≤ ch.toNat := Nat.pos_of_ne_zero (slotIndex_ne_zero hch)
    match k with
    | 0 =>
      cases hop
      refine ⟨trivial, ?_⟩
      rintro acc u v ⟨⟩
      exact ⟨fun _ => by rw [State.pinMode_pinModeOutput, if_pos rfl], by omega⟩
    | 1 =>
      cases hop
      have hout := houtput (by omega)
      exact ⟨hout, fun acc u v hr => boundBy_of_updateSlot_map hch hout (fun _ _ => rfl) hr _⟩
    | 2 =>
      cases hop
      have hout := houtput (by omega)
      have hpin := fun sl => hnamed (by omega) sl hpos
      exact ⟨fun sl _ hsl => hpin sl hsl ▸ hout, fun acc u v hr =>
        boundBy_of_updateSlot_map (f := ({ · with pinActive := true })) hch hout hpin hr _⟩
    | n + 3 => cases hop

theorem PinsMadeOutput.execAttach {s t : State} (h : PinsMadeOutput s) {ch : BitVec 4} {pin : BitVec 7}
    (he : execAttach ch pin s = .next t) : PinsMadeOutput t := by
  refine h.perform (boundBy_attachFirst s ch pin) (fun k op hb hop => ?_) he
  by_cases hk : k < 4
  · have hact : activateSteps[k]? = some op := (List.getElem?_append_left hk).symm.trans hop
    refine ⟨activateSteps_bindsOutput s op (List.mem_of_getElem? hact), fun acc u v _ => ?_⟩
    exact ⟨by omega, by omega⟩
  · obtain ⟨n, rfl⟩ := Nat.exists_eq_add_of_le' (Nat.le_of_not_lt hk)
    exact bindSteps_boundBy h.by_rule hb hop

theorem PinsMadeOutput.execOvf {s t : State} (h : PinsMadeOutput s) (he : execOvf s = .next t) : PinsMadeOutput t := by
  have hmode := execOvf_pinMode he
  rw [execOvf_frame he] at hmode ⊢
  exact
    { h with
      active_output := fun i sl hi hsl hact => (hmode _).trans (h.active_output i sl hi hsl hact)
      attach_output := fun ch pin n acc hf hn => (hmode _).trans (h.attach_output ch pin n acc hf hn) }

/-- Every operation keeps the invariant, a command at each of its micro-steps. -/
theorem PinsMadeOutput.exec {s t : State} (h : PinsMadeOutput s) {i : Instr} (he : exec i s = .next t) :
    PinsMadeOutput t := by
  cases i with
  | construct => exact h.perform_of_bindsOutput he (constructSteps_bindsOutput s) fun _ _ => trivial
  | attach ch pin => exact h.execAttach he
  | detach ch => exact h.perform_of_bindsOutput he (detachSteps_bindsOutput s ch) fun _ _ => trivial
  | attached ch => exact h.perform_of_bindsOutput he (attachedSteps_bindsOutput s ch) fun _ _ => trivial
  | writeUs ch width => exact h.perform_of_bindsOutput he (writeUsSteps_bindsOutput s _ ch width) fun _ _ => trivial
  | readUs ch => exact h.perform_of_bindsOutput he (readUsSteps_bindsOutput s ch) fun _ _ => trivial
  | ovf => exact h.execOvf he
  | tick => rw [exec_tick_frame he]; exact { h with }

theorem PinsMadeOutput.step {s t : State} (h : PinsMadeOutput s) (he : step s = .next t) : PinsMadeOutput t := by
  by_cases hrst : s.nextTurn = .rst
  · have hreset : Machine.step s = .next s.takeTurn.resetStep := by simpa [hrst] using step_cases s
    cases hreset.symm.trans he
    have hrule : s.takeTurn.cfg.writeOrder = .byRule := by rw [State.takeTurn_cfg, h.by_rule]
    exact { pinsMadeOutput_resetWith hrule with }
  · obtain ⟨ws, ts, n, hstep⟩ := step_next he hrst
    have hstart : PinsMadeOutput (s.opStart ws ts n) := { h with }
    rcases hstep with rfl | rfl | ⟨i, hi, -⟩
    · exact hstart
    · exact hstart.answer _
    · exact hstart.exec hi

end Sys2Proof.Machine

section

open Sys2Proof.Machine

/-- Settles O44: in the rules' order ATTACH binds its slot to a pin it has made an output, and activates the slot after
that (`bindSteps_boundBy`); no other operation binds or activates a slot, or takes an output back. -/
theorem stepKeepsPinsMadeOutput : Obligations.StepKeepsPinsMadeOutput :=
  fun _ _ h he => h.step he

end

/-! SUPPORT. Channel registration micro-step by micro-step (spec/42_channel_registration.md R140 to R146), what ATTACH
leaves unchanged, and that of all commands CONSTRUCT alone reads `instCount`. -/

namespace Sys2Proof.Machine

/-! ### Commands of one micro-step (R140, R144, R145) -/

theorem State.perform_only {s u : State} {i : Instr} {op : MicroOp} {acc0 v : Half} (hidle : s.inFlight = none)
    (hw : i.wellFormed s.cfg = true) (hr : MicroOp.run s acc0 op = .ok (u, v)) :
    s.perform i [op] 0 acc0 = .next (u.respond v) :=
  State.perform_step (State.position_fresh hidle i 0 acc0) hw rfl hr

/-- CONSTRUCT stores the next count and answers the next index. -/
theorem exec_construct {s : State} (hidle : s.inFlight = none) : exec .construct s = .next
    ((s.setInstCount (nextIndex s.cfg s.instCount).1).respond (nextIndex s.cfg s.instCount).2) :=
  State.perform_only hidle rfl rfl

/-- The index after a count of at most six channels does not wrap in its three bits (R10, R31). -/
theorem instCount_succ_toNat {c : Config} {n : BitVec 3} (h6 : c.nCh ≤ 6) (hn : n.toNat < c.nCh) :
    (n + 1).toNat = n.toNat + 1 := by
  rw [BitVec.toNat_add]
  exact Nat.mod_eq_of_lt (show n.toNat + 1 < 8 by omega)

theorem nextIndex_of_lt {c : Config} {n : BitVec 3} (h6 : c.nCh ≤ 6) (hn : n.toNat < c.nCh) :
    nextIndex c n = (n + 1, BitVec.ofNat 16 (n.toNat + 1)) := by
  rw [nextIndex, if_pos hn, ← BitVec.ofNat_toNat, instCount_succ_toNat h6 hn]

theorem nextIndex_of_le {c : Config} {n : BitVec 3} (hn : c.nCh ≤ n.toNat) : nextIndex c n = (n, 0) :=
  if_neg hn.not_gt

theorem exec_detach (ch : BitVec 4) (s : State) :
    exec (.detach ch) s = s.perform (.detach ch) (detachSteps ch) 0 0 := rfl

theorem exec_detach_inert {s : State} (hidle : s.inFlight = none) : exec (.detach 0) s = .next (s.respond 0) := by
  rw [exec_detach]
  exact State.perform_done (State.position_fresh hidle _ 0 0) (chanOk_zero s.cfg) rfl

theorem exec_attached (ch : BitVec 4) (s : State) :
    exec (.attached ch) s = s.perform (.attached ch) (attachedSteps ch) 0 0 := rfl

theorem exec_attached_inert {s : State} (hidle : s.inFlight = none) : exec (.attached 0) s = .next (s.respond 0) := by
  rw [exec_attached]
  exact State.perform_done (State.position_fresh hidle _ 0 0) (chanOk_zero s.cfg) rfl

section
variable {s : State} {ch : BitVec 4} {sl : Slot} (hok : chanOk s.cfg ch = true) (hch : ch ≠ 0)
  (hidle : s.inFlight = none) (hsl : s.table[ch.toNat]? = some sl)
include hok hch hidle hsl

theorem exec_detach_servo : exec (.detach ch) s = .next (State.respond
    { s with table := s.table.set ch.toNat { sl with pinActive := false } } 0) := by
  have hsteps : detachSteps ch = [.writePinActive (slotIndex ch) false] := by simp [detachSteps, isInert_of_ne hch]
  rw [exec_detach, hsteps]
  exact State.perform_only (i := .detach ch) hidle hok
    ((writePinActive_updates _ _).run_servo (slotIndex_ne_zero hch) hsl 0)

theorem exec_attached_servo : exec (.attached ch) s = .next (s.respond (if sl.pinActive then 1 else 0)) := by
  have hsteps : attachedSteps ch = [.readPinActive (slotIndex ch)] := by simp [attachedSteps, isInert_of_ne hch]
  have hrun : MicroOp.run s 0 (.readPinActive (slotIndex ch)) = .ok (s, if sl.pinActive then 1 else 0) := by
    simp [MicroOp.run, State.slot_of_handle hch hsl, Except.map]
  rw [exec_attached, hsteps]
  exact State.perform_only (i := .attached ch) hidle hok hrun

end

/-! ### ATTACH's activation (R142) -/

theorem writePinId_updates (j : Nat) (p : BitVec 7) : (MicroOp.writePinId j p).Updates j ({ · with pinId := p }) :=
  fun _ _ => rfl

theorem attachSteps_length_servo (c : Config) {ch : BitVec 4} (hch : ch ≠ 0) (pin : BitVec 7) :
    (attachSteps c ch pin).length = 7 := by
  cases hc : c.writeOrder with
  | byRule => rw [attachSteps, bindSteps_byRule hch pin hc]; rfl
  | swapped => rw [attachSteps, bindSteps_swapped hch pin hc]; rfl

/-- The state with the activation done: what ACTIVATE's four micro-steps make of it (R142). -/
def State.activated (s : State) : State := (s.timerConfig.timerLoad 0).ovfEnable.setStarted

theorem State.activated_eq (s : State) : s.activated =
    { s with tmrOn := true, cnt := 0, ovie := true, ovfPend := false, started := true,
             reqs := s.reqs ++ [.tmr .config, .tmr (.load 0), .tmr .ovfEnable] } := by
  simp [State.activated, State.timerConfig, State.timerLoad, State.ovfEnable, State.setStarted]

section
variable {s : State} {ch : BitVec 4} {pin : BitVec 7} (hok : chanOk s.cfg ch = true) (hpin : pinOk s.cfg pin = true)

theorem position_attach_unstarted (hidle : s.inFlight = none) (hstarted : s.started = false) :
    s.position (.attach ch pin) (attachFirst s) (ch.setWidth 16) = some (0, ch.setWidth 16) := by
  rw [State.position_fresh hidle, attachFirst, hstarted]
  rfl

theorem position_attach_started (hidle : s.inFlight = none) (hstarted : s.started = true) :
    s.position (.attach ch pin) (attachFirst s) (ch.setWidth 16) = some (4, ch.setWidth 16) := by
  rw [State.position_fresh hidle, attachFirst, hstarted]
  rfl

include hok hpin

theorem exec_attach_config (hidle : s.inFlight = none) (hstarted : s.started = false) :
    exec (.attach ch pin) s = .next (s.timerConfig.attaching ch pin 1) :=
  exec_attach_goesOn hok hpin (position_attach_unstarted hidle hstarted) rfl rfl (by decide)

variable {v : Half}

theorem exec_attach_load (hfly : s.inFlight = some ⟨.attach ch pin, 1, v⟩) :
    exec (.attach ch pin) s = .next ((s.timerLoad 0).setInFlight (.attach ch pin) 2 v) :=
  exec_attach_goesOn hok hpin (State.position_resumed hfly ..) rfl rfl (by decide)

theorem exec_attach_enable (hfly : s.inFlight = some ⟨.attach ch pin, 2, v⟩) :
    exec (.attach ch pin) s = .next (s.ovfEnable.setInFlight (.attach ch pin) 3 v) :=
  exec_attach_goesOn hok hpin (State.position_resumed hfly ..) rfl rfl (by decide)

/-- The activation's last micro-step ends the inert handle's ATTACH, and any other goes on. -/
theorem exec_attach_start (hfly : s.inFlight = some ⟨.attach ch pin, 3, v⟩) :
    exec (.attach ch pin) s = .next
      (if ch = 0 then s.setStarted.respond v else s.setStarted.setInFlight (.attach ch pin) 4 v) := by
  rw [exec_attach_activates hok hpin (State.position_resumed hfly ..) rfl rfl]
  split
  next hch => subst hch; rfl
  next hch => rw [attachSteps_length_servo s.cfg hch pin]; rfl

/-- Uninterrupted, the first ATTACH activates in four micro-steps. -/
theorem execTimes_attach_activated (hidle : s.inFlight = none) (hstarted : s.started = false) :
    execTimes 4 (.attach ch pin) s = .next
      (if ch = 0 then s.activated.respond (ch.setWidth 16) else s.activated.attaching ch pin 4) := by
  have hload := exec_attach_load (s := s.timerConfig.attaching ch pin 1) hok hpin rfl
  have henable := exec_attach_enable (s := (s.timerConfig.timerLoad 0).attaching ch pin 2) hok hpin rfl
  have hstart := exec_attach_start (s := (s.timerConfig.timerLoad 0).ovfEnable.attaching ch pin 3) hok hpin rfl
  have htwo := execTimes_two (exec_attach_config hok hpin hidle hstarted) hload
  exact (execTimes_add 2 2 _ _ _ htwo).trans (execTimes_two henable hstart)

end

/-! ### ATTACH's binding (R141) -/

section
variable {s : State} {ch : BitVec 4} {pin : BitVec 7} {v : Half} {sl : Slot} {op₁ op₂ : MicroOp} {f g : Slot → Slot}
  (hok : chanOk s.cfg ch = true) (hpin : pinOk s.cfg pin = true)
  (hsteps : bindSteps s.cfg ch pin = [.pinModeOutput pin, op₁, op₂])
include hok hpin hsteps

/-- ATTACH's micro-steps past the activation, from wherever the command stands. -/
theorem exec_attach_binds {u : State} {k : Nat} {acc : Half} {op : MicroOp}
    (hpos : s.position (.attach ch pin) (attachFirst s) (ch.setWidth 16) = some (k + 4, acc))
    (hk : [.pinModeOutput pin, op₁, op₂][k]? = some op) (hr : MicroOp.run s acc op = .ok (u, v)) :
    exec (.attach ch pin) s = .next (u.afterMicroStep (.attach ch pin) (k + 5) 7 v) := by
  have hprog : attachSteps s.cfg ch pin = activateSteps ++ [.pinModeOutput pin, op₁, op₂] := by
    rw [attachSteps, hsteps]
  have hop : (attachSteps s.cfg ch pin)[k + 4]? = some op := by rw [hprog]; exact hk
  have hlen : (attachSteps s.cfg ch pin).length = 7 := by rw [hprog]; rfl
  have hwf : (Instr.attach ch pin).wellFormed s.cfg = true := Bool.and_eq_true_iff.mpr ⟨hok, hpin⟩
  exact hlen ▸ State.perform_step hpos hwf hop hr

theorem exec_attach_output
    (hpos : s.position (.attach ch pin) (attachFirst s) (ch.setWidth 16) = some (4, v)) :
    exec (.attach ch pin) s = .next ((s.pinModeOutput pin).setInFlight (.attach ch pin) 5 v) :=
  exec_attach_binds hok hpin hsteps (k := 0) hpos rfl rfl

variable (hch : ch ≠ 0) (hsl : s.table[ch.toNat]? = some sl)
include hch hsl

theorem exec_attach_bind_first (hfly : s.inFlight = some ⟨.attach ch pin, 5, v⟩) (hf : op₁.Updates (slotIndex ch) f) :
    exec (.attach ch pin) s = .next
      { s with table := s.table.set ch.toNat (f sl), inFlight := some ⟨.attach ch pin, 6, v⟩ } :=
  exec_attach_binds hok hpin hsteps (k := 1) (State.position_resumed hfly ..) rfl
    (hf.run_servo (slotIndex_ne_zero hch) hsl v)

theorem exec_attach_bind_second (hfly : s.inFlight = some ⟨.attach ch pin, 6, v⟩) (hg : op₂.Updates (slotIndex ch) g) :
    exec (.attach ch pin) s = .next (State.respond { s with table := s.table.set ch.toNat (g sl) } v) :=
  exec_attach_binds hok hpin hsteps (k := 2) (State.position_resumed hfly ..) rfl
    (hg.run_servo (slotIndex_ne_zero hch) hsl v)

/-- With nothing between them the three micro-steps make the pin an output and both changes to the slot. -/
theorem execTimes_attach_binds_of_steps
    (hpos : s.position (.attach ch pin) (attachFirst s) (ch.setWidth 16) = some (4, v))
    (hf : op₁.Updates (slotIndex ch) f) (hg : op₂.Updates (slotIndex ch) g) :
    execTimes 3 (.attach ch pin) s = .next
      (State.respond { s.pinModeOutput pin with table := s.table.set ch.toNat (g (f sl)) } v) := by
  have houtput := exec_attach_output hok hpin hsteps hpos
  have hfirst := exec_attach_bind_first (s := (s.pinModeOutput pin).setInFlight (.attach ch pin) 5 v)
    hok hpin hsteps hch hsl rfl hf
  obtain ⟨hlt, -⟩ := List.getElem?_eq_some_iff.mp hsl
  have hsecond := exec_attach_bind_second (s := { s.pinModeOutput pin with
      table := s.table.set ch.toNat (f sl), inFlight := some ⟨.attach ch pin, 6, v⟩ })
    hok hpin hsteps hch (List.getElem?_set_self hlt) rfl hg
  rw [List.set_set] at hsecond
  rw [execTimes_add 2 1 _ _ _ (execTimes_two houtput hfirst), execTimes_one]
  exact hsecond

end

section
variable {s : State} {ch : BitVec 4} {pin : BitVec 7} {sl : Slot} (hok : chanOk s.cfg ch = true)
  (hpin : pinOk s.cfg pin = true) (hch : ch ≠ 0) (hsl : s.table[ch.toNat]? = some sl)
include hok hpin hch hsl

/-- Uninterrupted, ATTACH's step 2 binds and activates the slot in either order of the pin fields (R141, U8). -/
theorem execTimes_attach_binds {v : Half}
    (hpos : s.position (.attach ch pin) (attachFirst s) (ch.setWidth 16) = some (4, v)) :
    execTimes 3 (.attach ch pin) s = .next (State.respond
      { s.pinModeOutput pin with table := s.table.set ch.toNat { sl with pinId := pin, pinActive := true } } v) := by
  cases hc : s.cfg.writeOrder with
  | byRule =>
    exact execTimes_attach_binds_of_steps hok hpin (bindSteps_byRule hch pin hc) hch hsl hpos
      (writePinId_updates _ _) (writePinActive_updates _ _)
  | swapped =>
    exact execTimes_attach_binds_of_steps hok hpin (bindSteps_swapped hch pin hc) hch hsl hpos
      (writePinActive_updates _ _) (writePinId_updates _ _)

/-- Uninterrupted, the first ATTACH activates and then binds. -/
theorem execTimes_attach_first (hidle : s.inFlight = none) (hstarted : s.started = false) :
    execTimes 7 (.attach ch pin) s = .next (State.respond
      { s.activated.pinModeOutput pin with
          table := s.table.set ch.toNat { sl with pinId := pin, pinActive := true } } (ch.setWidth 16)) := by
  have hfour := execTimes_attach_activated hok hpin hidle hstarted
  rw [if_neg hch] at hfour
  have hcfg : (s.activated.attaching ch pin 4).cfg = s.cfg := by simp [State.activated, State.attaching]
  have htable : (s.activated.attaching ch pin 4).table = s.table := by simp [State.activated, State.attaching]
  have hbind := execTimes_attach_binds (s := s.activated.attaching ch pin 4) (by rwa [hcfg]) (by rwa [hcfg]) hch
    (by rwa [htable]) (State.position_resumed rfl ..)
  rw [execTimes_add 4 3 _ _ _ hfour, hbind]
  rfl

end

/-- Once the timer is started, ATTACH of the inert handle has no micro-step (R141, R143). -/
theorem exec_attach_inert {s : State} {pin : BitVec 7} (hpin : pinOk s.cfg pin = true) (hidle : s.inFlight = none)
    (hstarted : s.started = true) : exec (.attach 0 pin) s = .next (s.respond 0) :=
  State.perform_done (position_attach_started hidle hstarted)
    (Bool.and_eq_true_iff.mpr ⟨chanOk_zero s.cfg, hpin⟩) rfl

/-! ### What ATTACH leaves unchanged (R34, R141) -/

/-- The slot's encoded fields are as before. -/
def Slot.SameTiming (sl sl' : Slot) : Prop := sl'.tickBlocks = sl.tickBlocks ∧ sl'.remainder = sl.remainder

/-- The micro-steps of ATTACH's step 2: its `PinModeOutput`, and writes of the named slot's pin fields. -/
theorem bindSteps_update (c : Config) (ch : BitVec 4) (pin : BitVec 7) : ∀ op ∈ bindSteps c ch pin,
    op = .pinModeOutput pin ∨ ∃ f, op.Updates (slotIndex ch) f ∧ ∀ sl, Slot.SameTiming sl (f sl) := by
  have hid : ∃ f, (MicroOp.writePinId (slotIndex ch) pin).Updates (slotIndex ch) f ∧
      ∀ sl, Slot.SameTiming sl (f sl) :=
    ⟨_, writePinId_updates _ _, fun _ => ⟨rfl, rfl⟩⟩
  have hactive : ∃ f, (MicroOp.writePinActive (slotIndex ch) true).Updates (slotIndex ch) f ∧
      ∀ sl, Slot.SameTiming sl (f sl) :=
    ⟨_, writePinActive_updates _ _, fun _ => ⟨rfl, rfl⟩⟩
  unfold bindSteps
  split
  · nofun
  · split <;> simp only [List.forall_mem_cons]
    · exact ⟨.inl trivial, .inr hid, .inr hactive, nofun⟩
    · exact ⟨.inl trivial, .inr hactive, .inr hid, nofun⟩

/-- What a micro-step of ATTACH keeps from `s` to `t` (R34, R141). -/
structure AttachKeeps (ch : BitVec 4) (pin : BitVec 7) (s t : State) : Prop where
  frame : t = { s with table := t.table, started := t.started, cnt := t.cnt, tmrOn := t.tmrOn, ovie := t.ovie,
                       ovfPend := t.ovfPend, pins := t.pins, trace := t.trace, reqs := t.reqs, rsp := t.rsp,
                       responses := t.responses, inFlight := t.inFlight }
  length : t.table.length = s.table.length
  slots : ∀ i, i ≠ ch.toNat ∨ i = 0 → t.table[i]? = s.table[i]?
  timing : ∀ (i : Nat) (sl sl' : Slot), s.table[i]? = some sl → t.table[i]? = some sl' → Slot.SameTiming sl sl'
  levels : ∀ p, t.pinLevel p = s.pinLevel p
  modes : ∀ p, p ≠ pin → t.pinMode p = s.pinMode p

section
variable {ch : BitVec 4} {pin : BitVec 7} {s u : State}

theorem AttachKeeps.refl (ch : BitVec 4) (pin : BitVec 7) (s : State) : AttachKeeps ch pin s s where
  frame := rfl
  length := rfl
  slots := fun _ _ => rfl
  timing := fun _ _ _ hsl hsl' => by cases hsl.symm.trans hsl'; exact ⟨rfl, rfl⟩
  levels := fun _ => rfl
  modes := fun _ _ => rfl

theorem attachKeeps_activate {acc v : Half} {op : MicroOp} (hop : op ∈ activateSteps)
    (hr : MicroOp.run s acc op = .ok (u, v)) : AttachKeeps ch pin s u := by
  rw [activateSteps_run_frame hop hr]
  exact { AttachKeeps.refl ch pin s with frame := rfl }

theorem attachKeeps_pinModeOutput : AttachKeeps ch pin s (s.pinModeOutput pin) :=
  { AttachKeeps.refl ch pin s with
    frame := rfl
    levels := fun p => s.pinLevel_pinModeOutput pin p
    modes := fun p hp => by rw [State.pinMode_pinModeOutput, if_neg hp] }

theorem attachKeeps_updateSlot {f : Slot → Slot} (hf : ∀ sl, Slot.SameTiming sl (f sl))
    (hu : s.updateSlot ch.toNat f = .ok u) : AttachKeeps ch pin s u := by
  obtain ⟨hlen, hother, hzero⟩ := State.updateSlot_table hu
  have htiming (i : Nat) (sl sl' : Slot) := State.updateSlot_related (R := Slot.SameTiming) (i := i) (sl := sl)
    (sl' := sl') (fun _ => ⟨rfl, rfl⟩) hf hu
  rw [State.updateSlot_frame hu]
  refine { AttachKeeps.refl ch pin s with frame := rfl, length := hlen, slots := ?_, timing := htiming }
  rintro i (hi | rfl)
  · exact hother i hi
  · exact hzero

end

theorem exec_attach_keeps {s t : State} {ch : BitVec 4} {pin : BitVec 7} (h : exec (.attach ch pin) s = .next t) :
    AttachKeeps ch pin s t := by
  obtain ⟨u, hu, ht⟩ := State.perform_frame h
  have hkeeps : AttachKeeps ch pin s u := by
    rcases hu with rfl | ⟨op, hop, acc, v, hr⟩
    · exact .refl ch pin u
    · rcases List.mem_append.mp hop with hact | hbind
      · exact attachKeeps_activate hact hr
      · rcases bindSteps_update _ _ _ op hbind with rfl | ⟨f, hf, htiming⟩
        · cases hr
          exact attachKeeps_pinModeOutput
        · obtain ⟨u', hu, he⟩ := except_map_ok ((hf s acc).symm.trans hr)
          cases he
          exact attachKeeps_updateSlot htiming hu
  rw [ht]
  exact { hkeeps with frame := by rw [hkeeps.frame] }

/-! ### The count of constructed handles (R31, R146) -/

theorem State.updateSlot_setInstCount (s : State) (n : BitVec 3) (i : Nat) (f : Slot → Slot) :
    (s.setInstCount n).updateSlot i f = (s.updateSlot i f).map (·.setInstCount n) := by
  unfold State.updateSlot
  split
  · rfl
  · rw [State.setInstCount_table]
    split <;> rfl

/-- CONSTRUCT's micro-step alone reads `instCount`. -/
theorem MicroOp.run_setInstCount {s u : State} {acc v : Half} {op : MicroOp} (hop : op ≠ .takeIndex)
    (hr : MicroOp.run s acc op = .ok (u, v)) (n : BitVec 3) :
    MicroOp.run (s.setInstCount n) acc op = .ok (u.setInstCount n, v) := by
  have write {i : Nat} {f : Slot → Slot} (hr : (s.updateSlot i f).map (·, acc) = .ok (u, v)) :
      ((s.setInstCount n).updateSlot i f).map (·, acc) = .ok (u.setInstCount n, v) := by
    obtain ⟨t, ht, he⟩ := except_map_ok hr
    cases he
    rw [State.updateSlot_setInstCount, ht]
    rfl
  have read {i : Nat} {g : Slot → Half} (hr : (s.slot i).map (fun sl => (s, g sl)) = .ok (u, v)) :
      ((s.setInstCount n).slot i).map (fun sl => (s.setInstCount n, g sl)) = .ok (u.setInstCount n, v) := by
    obtain ⟨sl, hsl, he⟩ := except_map_ok hr
    cases he
    rw [State.slot_congr (State.setInstCount_table s n), hsl]
    rfl
  cases op with
  | takeIndex => exact absurd rfl hop
  | writePinId i p => exact write hr
  | writePinActive i b => exact write hr
  | writeTickBlocks i b => exact write hr
  | writeRemainder i b => exact write hr
  | readPinActive i => exact read hr
  | readTickBlocks i => exact read hr
  | readRemainder i => exact read hr
  | _ => cases hr; rfl

theorem State.afterMicroStep_setInstCount (s : State) (n : BitVec 3) (i : Instr) (k total : Nat) (acc : Half) :
    (s.setInstCount n).afterMicroStep i k total acc = (s.afterMicroStep i k total acc).setInstCount n := by
  unfold State.afterMicroStep
  split <;> rfl

theorem State.perform_ill {s : State} {i : Instr} {prog : List MicroOp} {first k : Nat} {acc0 acc : Half}
    (hp : s.position i first acc0 = some (k, acc)) (hw : i.wellFormed s.cfg = false) :
    s.perform i prog first acc0 = .next s.respondIll := by
  simp [State.perform, hp, hw]

theorem State.perform_setInstCount {s t : State} {i : Instr} {prog : List MicroOp} {first : Nat} {acc0 : Half}
    (hprog : .takeIndex ∉ prog) (h : s.perform i prog first acc0 = .next t) (n : BitVec 3) :
    (s.setInstCount n).perform i prog first acc0 = .next (t.setInstCount n) := by
  obtain ⟨k, acc, hpos, ⟨hw, rfl⟩ | ⟨hw, hk, rfl⟩ | ⟨hw, op, u, v, hk, hr, rfl⟩⟩ := State.perform_next h
  · exact State.perform_ill (s := s.setInstCount n) hpos hw
  · exact State.perform_done (s := s.setInstCount n) hpos hw hk
  · have hop : op ≠ .takeIndex := fun he => hprog (he ▸ List.mem_of_getElem? hk)
    rw [← State.afterMicroStep_setInstCount]
    exact State.perform_step (s := s.setInstCount n) hpos hw hk (MicroOp.run_setInstCount hop hr n)

theorem takeIndex_notMem_attachSteps (c : Config) (ch : BitVec 4) (pin : BitVec 7) :
    .takeIndex ∉ attachSteps c ch pin := by
  unfold attachSteps activateSteps bindSteps
  split
  · simp
  · split <;> simp

theorem takeIndex_notMem_writeUsSteps (c : Config) (ch : BitVec 4) (width : Half) :
    .takeIndex ∉ writeUsSteps c ch width := by
  unfold writeUsSteps
  split
  · simp
  · split <;> simp

theorem takeIndex_notMem_detachSteps (ch : BitVec 4) : .takeIndex ∉ detachSteps ch := by
  unfold detachSteps
  split <;> simp

theorem MicroOp.takeIndex_not_reads : ¬ MicroOp.takeIndex.Reads := by
  simp [MicroOp.Reads]

theorem exec_setInstCount {i : Instr} (hc : i.isCommand = true) (hne : i ≠ .construct) {s t : State}
    (h : exec i s = .next t) (n : BitVec 3) : exec i (s.setInstCount n) = .next (t.setInstCount n) := by
  cases i with
  | construct => exact absurd rfl hne
  | attach ch pin => exact State.perform_setInstCount (takeIndex_notMem_attachSteps _ ch pin) h n
  | detach ch => exact State.perform_setInstCount (takeIndex_notMem_detachSteps ch) h n
  | attached ch =>
    exact State.perform_setInstCount (fun hm => MicroOp.takeIndex_not_reads (attachedSteps_read ch _ hm)) h n
  | writeUs ch width => exact State.perform_setInstCount (takeIndex_notMem_writeUsSteps _ ch width) h n
  | readUs ch =>
    exact State.perform_setInstCount (fun hm => MicroOp.takeIndex_not_reads (readUsSteps_read ch _ hm)) h n
  | ovf | tick => cases hc

end Sys2Proof.Machine

section

open Sys2Proof Sys2Proof.Machine

/-- Settles O17: below `N_CH` the next index is the count's successor, which fits its three bits (R10), else there is
none. -/
theorem constructGivesTheNextIndex : Obligations.ConstructGivesTheNextIndex := by
  rintro s ⟨⟨-, h6⟩, -⟩ hidle
  refine ⟨fun hlt => ⟨?_, instCount_succ_toNat h6 hlt⟩, fun hle => ?_⟩
  · rw [exec_construct hidle, nextIndex_of_lt h6 hlt]
    rfl
  · rw [exec_construct hidle, nextIndex_of_le hle]
    rfl

/-- Settles O22: no micro-step for the inert handle, and one write of `pin.active` for a servo slot. -/
theorem detachClearsActive : Obligations.DetachClearsActive :=
  ⟨fun _ hidle => exec_detach_inert hidle, fun _ _ _ hok hch hidle hsl => exec_detach_servo hok hch hidle hsl⟩

/-- Settles O23: no micro-step for the inert handle, and one read of `pin.active` for a servo slot. -/
theorem attachedAnswersActive : Obligations.AttachedAnswersActive :=
  ⟨fun _ hidle => exec_attached_inert hidle, fun _ _ _ hok hch hidle hsl => exec_attached_servo hok hch hidle hsl⟩

/-- Settles O24: the four micro-steps of ACTIVATE, each from the record of R37 that names it. -/
theorem attachActivatesFirst : Obligations.AttachActivatesFirst :=
  fun _ _ _ _ hok hpin => ⟨exec_attach_config hok hpin, exec_attach_load hok hpin, exec_attach_enable hok hpin,
    exec_attach_start hok hpin⟩

/-- Settles O25: the three micro-steps of the binding in the rules' order, the first one where a new ATTACH of a started
block begins, or where the activation has left it. -/
theorem attachBindsThePin : Obligations.AttachBindsThePin := by
  intro s ch pin v sl horder hok hpin hch hsl
  have hsteps := bindSteps_byRule hch pin horder
  refine ⟨fun hidle hstarted => ?_, fun hfly => ?_, fun hfly => ?_, fun hfly => ?_⟩
  · exact exec_attach_output hok hpin hsteps (position_attach_started hidle hstarted)
  · exact exec_attach_output hok hpin hsteps (State.position_resumed hfly ..)
  · exact exec_attach_bind_first hok hpin hsteps hch hsl hfly (writePinId_updates _ _)
  · exact exec_attach_bind_second hok hpin hsteps hch hsl hfly (writePinActive_updates _ _)

/-- Settles O26: the activation where the block is not started, then the binding where the handle is a servo's. -/
theorem attachCompletes : Obligations.AttachCompletes := by
  intro s ch pin hok hpin hidle
  refine ⟨fun hstarted hch => ?_, fun hstarted hch => ?_, fun sl hstarted hch hsl => ?_, fun sl hstarted hch hsl => ?_⟩
  · subst hch
    exact exec_attach_inert hpin hidle hstarted
  · subst hch
    rw [execTimes_attach_activated hok hpin hidle hstarted, State.activated_eq]
    rfl
  · exact execTimes_attach_binds hok hpin hch hsl (position_attach_started hidle hstarted)
  · rw [execTimes_attach_first hok hpin hch hsl hidle hstarted, State.activated_eq]
    simp [State.pinModeOutput]

/-- Settles O27: the inert handle has no micro-step but ACTIVATE's. -/
theorem inertHandle : Obligations.InertHandle := by
  intro s hidle
  refine ⟨exec_writeUs_inert hidle, exec_detach_inert hidle, exec_readUs_inert hidle, exec_attached_inert hidle,
    fun pin hpin => ⟨exec_attach_inert hpin hidle, fun hstarted => ?_⟩⟩
  have hfour := execTimes_attach_activated (chanOk_zero s.cfg) hpin hidle hstarted
  rw [if_pos rfl] at hfour
  refine ⟨_, hfour, ?_⟩
  simp [State.activated, State.respond]

/-- Settles O29: no micro-step but CONSTRUCT's reads or writes `instCount` (`MicroOp.run_setInstCount`), and nothing
around a micro-step does. -/
theorem chanIsNotCheckedAgainstInstCount : Obligations.ChanIsNotCheckedAgainstInstCount :=
  fun _ _ _ n hc hne h => exec_setInstCount hc hne h n

/-- Settles O40: each micro-step of ATTACH is one of the activation's, its `PinModeOutput`, or a write of a pin field of
the slot named (`bindSteps_update`). -/
theorem attachFrame : Obligations.AttachFrame := by
  intro s t ch pin h
  have hkeeps := exec_attach_keeps h
  exact ⟨hkeeps.frame, hkeeps.length, hkeeps.slots, hkeeps.timing, hkeeps.levels, hkeeps.modes⟩

end

/-! SUPPORT. What the handler reads (spec/60_exceptions.md R163, R169), and that no operation faults where the invariant
holds, since each names slots that exist (spec/20_memory.md R51). -/

namespace Sys2Proof.Machine

/-! ### The started flag in a handler run (R32, R169) -/

section
variable (s : State) (b : Bool)

theorem State.driveSlot_withStarted (sl : Slot) (l : Level) :
    State.driveSlot { s with started := b } sl l = { s.driveSlot sl l with started := b } := by
  unfold State.driveSlot
  split <;> rfl

/-- The handler clears `OVF_PEND` as it is entered, so the state in which a slot has ended shows no former value. -/
theorem State.leftSlot_withStarted (p : Bool) (old : Slot) :
    State.leftSlot { s with started := b, ovfPend := p } old = { s.leftSlot old with started := b } := by
  unfold State.leftSlot
  rw [show State.enterHandler { s with started := b, ovfPend := p } = { s.enterHandler with started := b } from rfl,
    State.driveSlot_withStarted]
  rfl

end

theorem State.beginSlot_withStarted {s t : State} (h : s.beginSlot = .ok t) (b : Bool) :
    State.beginSlot { s with started := b } = .ok { t with started := b } := by
  rcases State.beginSlot_ok h with ⟨hwrap, rfl⟩ | ⟨hle, new, hnew, rfl⟩
  · exact if_pos hwrap
  · have hslot : State.slot { s with started := b } s.cur.toNat = .ok new := hnew
    rw [State.beginSlot, if_neg hle.not_gt, hslot, ← State.driveSlot_withStarted]
    rfl

/-- A handler run carries `started` through, and does the same whatever `OVF_PEND` was. -/
theorem execOvf_withStarted {s t : State} (h : execOvf s = .next t) (b p : Bool) :
    execOvf { s with started := b, ovfPend := p } = .next { t with started := b } := by
  obtain ⟨old, hold, ⟨heq, rfl⟩ | ⟨-, hpast, hbegin⟩ | ⟨hbefore, rfl⟩⟩ := execOvf_next h
  · exact execOvf_loads (s := { s with started := b, ovfPend := p }) hold heq
  · have hbegin' : (State.leftSlot { s with started := b, ovfPend := p } old).beginSlot =
        .ok { t with started := b } := by
      rw [State.leftSlot_withStarted]
      exact State.beginSlot_withStarted hbegin b
    exact execOvf_ends (s := { s with started := b, ovfPend := p }) hold hpast hbegin'
  · exact execOvf_counts (s := { s with started := b, ovfPend := p }) hold hbefore

/-! ### Slots that exist (R51) -/

section
variable {s : State} {i : Nat} (hi : i < s.table.length)
include hi

theorem State.slot_of_lt : ∃ sl, s.slot i = .ok sl :=
  ⟨_, State.slot_ok_iff.mpr ⟨_, List.getElem?_eq_getElem hi, rfl⟩⟩

theorem State.updateSlot_of_lt (f : Slot → Slot) : ∃ t, s.updateSlot i f = .ok t := by
  by_cases h0 : i = 0
  · exact ⟨s, if_pos h0⟩
  · exact ⟨_, State.updateSlot_servo h0 (List.getElem?_eq_getElem hi)⟩

end

/-- A legal channel names a slot of a table of full length (R20, R75). -/
theorem slotIndex_lt_of_chanOk {s : State} {ch : BitVec 4} (hlen : s.table.length = s.cfg.nCh + 1)
    (hch : chanOk s.cfg ch = true) : slotIndex ch < s.table.length := by
  have hle : slotIndex ch ≤ s.cfg.nCh := of_decide_eq_true hch
  omega

/-! ### Micro-steps that do not fault -/

/-- The micro-step runs in `s`, whatever the command's value is. -/
def MicroOp.RunsIn (s : State) (op : MicroOp) : Prop := ∀ acc, ∃ r, MicroOp.run s acc op = .ok r

section
variable {s : State} {ch : BitVec 4} (hch : slotIndex ch < s.table.length)
include hch

theorem MicroOp.Updates.runsIn {op : MicroOp} {f : Slot → Slot} (h : op.Updates (slotIndex ch) f) : op.RunsIn s := by
  intro acc
  obtain ⟨t, ht⟩ := State.updateSlot_of_lt hch f
  exact ⟨(t, acc), by rw [h s acc, ht]; rfl⟩

theorem attachedSteps_runIn : ∀ op ∈ attachedSteps ch, op.RunsIn s := by
  obtain ⟨sl, hsl⟩ := State.slot_of_lt hch
  unfold attachedSteps
  split <;> simp [MicroOp.RunsIn, MicroOp.run, hsl, Except.map]

theorem readUsSteps_runIn : ∀ op ∈ readUsSteps ch, op.RunsIn s := by
  obtain ⟨sl, hsl⟩ := State.slot_of_lt hch
  unfold readUsSteps
  split <;> simp [MicroOp.RunsIn, MicroOp.run, hsl, Except.map]

theorem detachSteps_runIn : ∀ op ∈ detachSteps ch, op.RunsIn s := by
  intro op hop
  obtain ⟨f, hf, -⟩ := detachSteps_update ch op hop
  exact hf.runsIn hch

theorem writeUsSteps_runIn (width : Half) : ∀ op ∈ writeUsSteps s.cfg ch width, op.RunsIn s := by
  intro op hop
  obtain ⟨f, hf, -⟩ := writeUsSteps_update _ ch width op hop
  exact hf.runsIn hch

theorem attachSteps_runIn (pin : BitVec 7) : ∀ op ∈ attachSteps s.cfg ch pin, op.RunsIn s := by
  have hactivate : ∀ op ∈ activateSteps, op.RunsIn s := by simp [activateSteps, MicroOp.RunsIn, MicroOp.run]
  intro op hop
  rcases List.mem_append.mp hop with hact | hbind
  · exact hactivate op hact
  · rcases bindSteps_update _ ch pin op hbind with rfl | ⟨f, hf, -⟩
    · exact fun _ => ⟨_, rfl⟩
    · exact hf.runsIn hch

end

/-! ### Operations that do not fault (R51, R75, R110) -/

/-- A command faults only in a micro-step of its own, and takes one only where it is well formed. -/
theorem State.perform_ne_fault {s : State} {i : Instr} {prog : List MicroOp} {first : Nat} {acc0 : Half} {e : Fault}
    (hprog : i.wellFormed s.cfg = true → ∀ op ∈ prog, op.RunsIn s) :
    s.perform i prog first acc0 ≠ .fault e := by
  unfold State.perform
  split
  · nofun
  next k acc _ =>
    split
    next hw =>
      split
      · nofun
      next op hk =>
        obtain ⟨r, hr⟩ := hprog hw op (List.mem_of_getElem? hk) acc
        rw [hr]
        nofun
    · nofun

section
variable {s : State} (h : Inv s)
include h

/-- A handler run answers: the slot under the cursor exists, and so does the one that begins. -/
theorem Inv.exec_ovf_answers : ∃ t, Machine.exec .ovf s = .next t := by
  have hlen := h.table_length
  have hcur := h.cur_range
  obtain ⟨⟨-, h6⟩, -⟩ := h.cfg_valid
  obtain ⟨old, hold⟩ := State.slot_of_lt (s := s) (i := s.cur.toNat) (by omega)
  rcases Nat.lt_trichotomy (s.iter + 1).toNat old.tickBlocks.toNat with hbefore | heq | hpast
  · exact ⟨_, execOvf_counts hold hbefore⟩
  · exact ⟨_, execOvf_loads hold (BitVec.eq_of_toNat_eq heq)⟩
  · obtain ⟨t, hbegin⟩ := State.leftSlot_beginSlot_total old h6 hcur hlen
    exact ⟨t, execOvf_ends hold hpast hbegin⟩

theorem Inv.exec_ne_fault (i : Instr) (e : Fault) : Machine.exec i s ≠ .fault e := by
  have named {ch : BitVec 4} (hch : chanOk s.cfg ch = true) : slotIndex ch < s.table.length :=
    slotIndex_lt_of_chanOk h.table_length hch
  cases i with
  | construct => exact State.perform_ne_fault (by simp [constructSteps, MicroOp.RunsIn, MicroOp.run])
  | attach ch pin =>
    exact State.perform_ne_fault (fun hw => attachSteps_runIn (named (Bool.and_eq_true_iff.mp hw).1) pin)
  | detach ch => exact State.perform_ne_fault (fun hw => detachSteps_runIn (named hw))
  | attached ch => exact State.perform_ne_fault (fun hw => attachedSteps_runIn (named hw))
  | writeUs ch width => exact State.perform_ne_fault (fun hw => writeUsSteps_runIn (named hw) width)
  | readUs ch => exact State.perform_ne_fault (fun hw => readUsSteps_runIn (named hw))
  | ovf =>
    obtain ⟨t, ht⟩ := h.exec_ovf_answers
    rw [ht]; nofun
  | tick => rw [execTick_eq]; nofun

theorem Inv.hostTurn_ne_fault (e : Fault) : s.hostTurn ≠ .fault e := by
  rcases s.hostTurn_cases with ⟨f, -, hgo⟩ | ⟨-, hidle | ⟨w, rest, -, ⟨i, -, hnew⟩ | ⟨-, hill⟩⟩⟩
  · rw [hgo]; exact h.exec_ne_fault _ e
  · rw [hidle]; nofun
  · rw [hnew]; exact (h.withCmdWords rest).exec_ne_fault i e
  · rw [hill]; nofun

theorem Inv.step_ne_fault (e : Fault) : Machine.step s ≠ .fault e := by
  rcases step_cases s with ⟨-, hrst⟩ | ⟨-, -, hovf⟩ | ⟨-, -, htick⟩ | ⟨-, -, hhost⟩
  · rw [hrst]; nofun
  · rw [hovf]; exact h.clearPorts.exec_ne_fault _ e
  · rw [htick]; exact h.takeTurn.clearPorts.exec_ne_fault _ e
  · rw [hhost]; exact h.takeTurn.clearPorts.hostTurn_ne_fault e

end

end Sys2Proof.Machine

section

open Sys2Proof.Machine

/-- Settles O35: each of R110's three outcomes is one of the changed state too (`execOvf_withStarted`), for no
test of the handler is of `started`, and it clears `OVF_PEND` as it is entered. -/
theorem handlerIgnoresStarted : Obligations.HandlerIgnoresStarted :=
  fun _ _ b p h => execOvf_withStarted h b p

/-- Settles O45: a step is not refused in any state (O46), and where the invariant holds it does not fault, for every
slot that is named exists (`Inv.step_ne_fault`). -/
theorem noStateIsStuck : Obligations.NoStateIsStuck := by
  intro s h
  cases hs : step s with
  | next t => exact ⟨t, rfl⟩
  | fault e => exact absurd hs (h.step_ne_fault e)
  | refused r => exact absurd hs (stepNeverRefuses s r)

end

/-! SUPPORT. The hazards (spec/70_reset_and_hazards.md R191 to R193): what a remainder does to a slot's length, what the
end of an inactive slot drives, and what the end of a slot loads. -/

namespace Sys2Proof.Machine

/-! ### A torn pair (R119, R191) -/

/-- A slot of at least one block is shorter by what its remainder is larger (R119). -/
theorem slotTicks_remainder {b : Byte} (hb : b ≠ 0) (r r' : Byte) :
    (slotTicks b r : Int) = slotTicks b r' + ((r'.toNat : Int) - r.toNat) := by
  have hr := r.isLt
  have hr' := r'.isLt
  rw [slotTicks, slotTicks, if_neg hb, if_neg hb]
  omega

theorem enc_default_fst_ne_zero (w : Int) : (enc Config.default w).1 ≠ 0 := by
  intro h0
  have hpos := (enc_default_fst_range w).1
  rw [h0] at hpos
  exact absurd hpos (by decide)

/-! ### The pin of a slot that is driven high or low (R117, R171) -/

theorem State.driveSlot_trace (s : State) (sl : Slot) (l : Level) :
    (s.driveSlot sl l).trace = s.trace ++ if sl.pinActive then [(s.now, .write sl.pinId l)] else [] := by
  cases hact : sl.pinActive with
  | true => rw [State.driveSlot_active hact]; rfl
  | false => rw [State.driveSlot_inactive hact]; exact (List.append_nil _).symm

/-- A pin that is at level `l` stays there when a slot is driven to `l`, its own or another pin's. -/
theorem State.pinLevel_driveSlot_same {s : State} {p : BitVec 7} {l : Level} (hp : s.pinLevel p = .driven l)
    (sl : Slot) : (s.driveSlot sl l).pinLevel p = .driven l := by
  unfold State.driveSlot
  split
  · rw [State.pinLevel_pinWrite, hp, ite_self]
  · exact hp

/-- Driving a slot's pin asks nothing of the timer. -/
theorem State.tmr_mem_driveSlot_reqs {s : State} {sl : Slot} {l : Level} {r : TimerRequest} :
    Request.tmr r ∈ (s.driveSlot sl l).reqs ↔ Request.tmr r ∈ s.reqs := by
  unfold State.driveSlot
  split <;> simp

/-! ### The end of a slot (R110 step 3, R114) -/

/-- The slot that begins is driven high, a wrap to slot 0 included: slot 0 is never active (R22). -/
theorem State.leftSlot_beginSlot_drives {s : State} {new : Slot} (old : Slot) (h6 : s.cfg.nCh ≤ 6)
    (hc : s.cur.toNat ≤ s.cfg.nCh) (hnew : s.slot (nextSlot s.cfg s.cur.toNat) = .ok new) :
    ∃ u, (s.leftSlot old).beginSlot = .ok u ∧ u.pins = ((s.leftSlot old).driveSlot new .high).pins ∧
      u.trace = ((s.leftSlot old).driveSlot new .high).trace := by
  rcases hc.lt_or_eq with hlt | hlast
  · rw [nextSlot, if_neg (by omega)] at hnew
    exact ⟨_, State.leftSlot_beginSlot_move old h6 hlt hnew, rfl, rfl⟩
  · rw [nextSlot, if_pos (by omega)] at hnew
    rw [State.driveSlot_inactive (State.slot_zero_inactive hnew)]
    exact ⟨_, State.leftSlot_beginSlot_wrap old h6 hlast, rfl, rfl⟩

/-- The handler run that ends an inactive slot drives the pin of the slot that begins, and no other (R117). -/
theorem execOvf_ends_inactive {s : State} {old new : Slot} (h6 : s.cfg.nCh ≤ 6) (hc : s.cur.toNat ≤ s.cfg.nCh)
    (hold : s.slot s.cur.toNat = .ok old) (hact : old.pinActive = false) (hpast : old.tickBlocks < s.iter + 1)
    (hnew : s.slot (nextSlot s.cfg s.cur.toNat) = .ok new) :
    ∃ u, exec .ovf s = .next u ∧ u.cur.toNat = nextSlot s.cfg s.cur.toNat ∧
      u.pins = (s.driveSlot new .high).pins ∧ u.trace = (s.driveSlot new .high).trace := by
  obtain ⟨u, hbegin, hpins, htrace⟩ := State.leftSlot_beginSlot_drives old h6 hc hnew
  obtain ⟨hcur, -⟩ := State.leftSlot_beginSlot_counters h6 hc hbegin
  have hleft : s.leftSlot old = (s.enterHandler.setSequencer (s.cur + 1) 0).timerLoad 0 := by
    rw [State.leftSlot, State.driveSlot_inactive hact]
  obtain ⟨hpins', htrace'⟩ : ((s.leftSlot old).driveSlot new .high).pins = (s.driveSlot new .high).pins ∧
      ((s.leftSlot old).driveSlot new .high).trace = (s.driveSlot new .high).trace := by
    rw [hleft]
    unfold State.driveSlot
    split <;> exact ⟨rfl, rfl⟩
  exact ⟨u, execOvf_ends hold hpast hbegin, hcur, hpins.trans hpins', htrace.trans htrace'⟩

/-- The end of a slot loads 0 and nothing else (R110 step 3). -/
theorem State.leftSlot_beginSlot_loads {s t : State} {old : Slot} (hbegin : (s.leftSlot old).beginSlot = .ok t)
    {v : Byte} (hv : Request.tmr (.load v) ∈ t.reqs) : Request.tmr (.load v) ∈ s.reqs ∨ v = 0 := by
  have hleft : Request.tmr (.load v) ∈ (s.leftSlot old).reqs := by
    rcases State.beginSlot_ok hbegin with ⟨-, rfl⟩ | ⟨-, new, -, rfl⟩
    · exact hv
    · exact State.tmr_mem_driveSlot_reqs.mp hv
  have hsplit : Request.tmr (.load v) ∈ (s.enterHandler.driveSlot old .low).reqs ∨ v = 0 := by
    simpa [State.leftSlot] using hleft
  exact hsplit.imp_left (State.tmr_mem_driveSlot_reqs (s := s.enterHandler)).mp

/-! ### The slot that DETACH has changed (R144) -/

/-- The state in which DETACH of the servo slot `sl` of handle `ch` leaves the machine. -/
def State.detached (s : State) (ch : BitVec 4) (sl : Slot) : State :=
  State.respond { s with table := s.table.set ch.toNat { sl with pinActive := false } } 0

theorem State.detached_slot_self {s : State} {ch : BitVec 4} (hch : ch ≠ 0) {sl : Slot}
    (hsl : s.table[ch.toNat]? = some sl) : (s.detached ch sl).slot ch.toNat = .ok { sl with pinActive := false } := by
  obtain ⟨hlt, -⟩ := List.getElem?_eq_some_iff.mp hsl
  exact (State.slot_servo (slotIndex_ne_zero hch)).mpr (List.getElem?_set_self hlt)

theorem State.detached_slot_ne (s : State) {ch : BitVec 4} (sl : Slot) {i : Nat} (hi : i ≠ ch.toNat) :
    (s.detached ch sl).slot i = s.slot i := by
  have htable : (s.detached ch sl).table[i]? = s.table[i]? := List.getElem?_set_ne hi.symm
  rw [State.slot, State.slot, htable]

end Sys2Proof.Machine

section

open Sys2Proof Sys2Proof.Machine

/-- Settles O58: the first micro-step in the rules' order writes the blocks (`exec_writeUs_first`), and with at least
three of them the remainder counts in full (`slotTicks_remainder`). -/
theorem tornWriteUs : Obligations.TornWriteUs := by
  intro s ch width sl w hcfg hok hch hidle hsl hrem
  have hprog := writeUsSteps_byRule (c := s.cfg) hch (by rw [hcfg]; rfl) width
  obtain ⟨hlt, -⟩ := List.getElem?_eq_some_iff.mp hsl
  obtain ⟨-, hmin, hmax⟩ := enc_default_snd_range width.toInt
  obtain ⟨-, hmin', hmax'⟩ := enc_default_snd_range w
  rw [← hrem] at hmin' hmax'
  refine ⟨_, _, exec_writeUs_first hok hch hsl hprog hidle (writeTickBlocks_updates _ _),
    List.getElem?_set_self hlt, by rw [hcfg]; rfl, rfl, ?_, by omega, by omega⟩
  rw [hcfg]
  exact slotTicks_remainder (enc_default_fst_ne_zero _) _ _

/-- Settles O59: DETACH makes the slot under way inactive, so its end drives the next slot's pin alone
(`execOvf_ends_inactive`), and to high. -/
theorem detachMidPulseLeavesThePinHigh : Obligations.DetachMidPulseLeavesThePinHigh := by
  intro s ch sl hc hok hch hidle hlen hsl hcur hhigh hpast
  obtain ⟨⟨-, h6⟩, -⟩ := hc
  have hle : ch.toNat ≤ s.cfg.nCh := of_decide_eq_true hok
  have hpos : ch.toNat ≠ 0 := slotIndex_ne_zero hch
  have hnext := nextSlot_le s.cfg ch.toNat
  have hne : nextSlot s.cfg ch.toNat ≠ ch.toNat := by
    unfold nextSlot
    split <;> omega
  obtain ⟨new, hnew⟩ := State.slot_of_lt (s := s) (i := nextSlot s.cfg ch.toNat) (by omega)
  have hold := State.detached_slot_self hch hsl
  have hnew' := (s.detached_slot_ne sl hne).trans hnew
  rw [← hcur] at hle hold hnew' ⊢
  obtain ⟨u, hu, hcuru, hpins, htrace⟩ :=
    execOvf_ends_inactive (s := s.detached ch sl) h6 hle hold rfl hpast hnew'
  refine ⟨s.detached ch sl, u, new, exec_detach_servo hok hch hidle hsl, hu, hcuru, ?_, hcur ▸ hnew, ?_⟩
  · rw [State.pinLevel, hpins]
    exact State.pinLevel_driveSlot_same (s := s.detached ch sl) hhigh new
  · rw [htrace, State.driveSlot_trace]
    rfl

/-- Settles O60: `iter` does not wrap (R115), so blocks that have passed are fewer than the next count, and the handler
run ends the slot; that loads 0 alone (`State.leftSlot_beginSlot_loads`). -/
theorem shorterWidthEndsTheSlotAtOnce : Obligations.ShorterWidthEndsTheSlotAtOnce := by
  intro s sl hinv hsl hpassed
  obtain ⟨⟨-, h6⟩, -⟩ := hinv.cfg_valid
  obtain ⟨old, hold, hblocks, -⟩ := State.slot_of_table hsl
  have hpast : old.tickBlocks < s.iter + 1 := by
    rw [hblocks, BitVec.lt_def, byte_succ_toNat hinv.iter_range]
    exact Nat.lt_succ_of_le hpassed
  obtain ⟨t, hbegin⟩ := State.leftSlot_beginSlot_total old h6 hinv.cur_range hinv.table_length
  obtain ⟨hcur, hiter, hcnt⟩ := State.leftSlot_beginSlot_counters h6 hinv.cur_range hbegin
  exact ⟨t, execOvf_ends hold hpast hbegin, hcur, hiter, hcnt, fun _ => State.leftSlot_beginSlot_loads hbegin⟩

/-- Settles O9: in a reset's turn the step is `State.resetStep`, which takes every field from `State.resetWith` but the
parameters and the environment's inputs; using up the turn changes neither the parameters nor the words. -/
theorem rstGivesTheResetState : Obligations.RstGivesTheResetState := by
  intro s hrst
  have hstep : step s = .next s.takeTurn.resetStep := by simpa [hrst] using step_cases s
  have htable : s.takeTurn.resetStep.table = (State.resetWith s.cfg).table := by
    rw [← State.takeTurn_cfg s]
    rfl
  exact ⟨_, hstep, State.takeTurn_cfg s, htable, rfl, rfl, rfl, rfl, rfl, rfl, rfl, fun _ => ⟨rfl, rfl⟩, rfl, rfl,
    rfl, State.takeTurn_cmdWords s⟩

end

/-! SUPPORT. The model's own choices about the cases that the spec excludes or leaves open: a second command in flight
(R74, R189), operands that no legal word carries (R75), a slot that does not exist (R51), and that no operation writes
the parameters (R6, R8). -/

namespace Sys2Proof.Machine

/-! ### Overlapping and ill-formed commands (R74, R75, R189) -/

theorem State.perform_overlap {s : State} {i : Instr} {f : InFlight} (hf : s.inFlight = some f) (hne : f.cmd ≠ i)
    (prog : List MicroOp) (first : Nat) (acc0 : Half) :
    s.perform i prog first acc0 = .refused .commandsOverlap := by
  have hpos : s.position i first acc0 = none := by simp [State.position, hf, hne]
  simp [State.perform, hpos]

/-- A strobe has no operands, so what is ill formed is a command (R75, R76). -/
theorem isCommand_of_not_wellFormed {c : Config} {i : Instr} (hw : i.wellFormed c = false) : i.isCommand = true := by
  cases i with
  | ovf | tick => cases hw
  | _ => rfl

/-! ### Slots that do not exist (R51) -/

/-- A command stops with the fault of the micro-step it is to take. -/
theorem State.perform_fault {s : State} {i : Instr} {prog : List MicroOp} {first k : Nat} {acc0 acc : Half}
    {op : MicroOp} {e : Fault} (hp : s.position i first acc0 = some (k, acc)) (hw : i.wellFormed s.cfg = true)
    (hk : prog[k]? = some op) (hr : MicroOp.run s acc op = .error e) :
    s.perform i prog first acc0 = .fault e := by
  simp [State.perform, hp, hw, hk, hr]

theorem MicroOp.run_readPinActive_missing {s : State} {i : Nat} (h : s.table[i]? = none) (acc : Half) :
    MicroOp.run s acc (.readPinActive i) = .error (.noSuchSlot i) := by
  have hslot : s.slot i = .error (.noSuchSlot i) := State.slot_error_iff.mpr ⟨h, rfl⟩
  rw [MicroOp.run, hslot]
  rfl

theorem exec_attached_missing {s : State} {ch : BitVec 4} (hok : chanOk s.cfg ch = true) (hch : ch ≠ 0)
    (hidle : s.inFlight = none) (hsl : s.table[ch.toNat]? = none) :
    exec (.attached ch) s = .fault (.noSuchSlot ch.toNat) := by
  have hsteps : attachedSteps ch = [.readPinActive ch.toNat] := by simp [attachedSteps, isInert_of_ne hch, slotIndex]
  rw [exec_attached, hsteps]
  exact State.perform_fault (State.position_fresh hidle (.attached ch) 0 0) hok rfl
    (MicroOp.run_readPinActive_missing hsl 0)

/-- The handler reads `slot[cur]` before it does anything else that can be seen (R110, R112). -/
theorem exec_ovf_missing {s : State} (hsl : s.table[s.cur.toNat]? = none) :
    exec .ovf s = .fault (.noSuchSlot s.cur.toNat) := by
  have hslot : s.enterHandler.slot s.enterHandler.cur.toNat = .error (.noSuchSlot s.cur.toNat) :=
    State.slot_error_iff.mpr ⟨hsl, rfl⟩
  rw [exec, execOvf, State.handler, State.handlerBody, hslot]

/-! ### The parameters (R6, R8) -/

theorem exec_cfg {s t : State} {i : Instr} (h : exec i s = .next t) : t.cfg = s.cfg := by
  have command (hc : i.isCommand = true) : t.cfg = s.cfg := (exec_command_cur hc h).2
  cases i with
  | ovf => rw [execOvf_frame h]
  | tick => rw [exec_tick_frame h]
  | _ => exact command rfl

theorem State.resetStep_cfg (s : State) : s.resetStep.cfg = s.cfg := rfl

theorem step_cfg {s t : State} (h : step s = .next t) : t.cfg = s.cfg := by
  by_cases hrst : s.nextTurn = .rst
  · have hreset : step s = .next s.takeTurn.resetStep := by simpa [hrst] using step_cases s
    cases hreset.symm.trans h
    rw [State.resetStep_cfg, State.takeTurn_cfg]
  · obtain ⟨ws, ts, n, rfl | rfl | ⟨i, hi, -⟩⟩ := step_next h hrst
    · rfl
    · rfl
    · exact exec_cfg (s := s.opStart ws ts n) hi

end Sys2Proof.Machine

section

open Sys2Proof.Machine

/-- Settles O30: a command goes through `State.perform`, which finds no position for it where the record in flight is
another command's (`State.perform_overlap`). -/
theorem secondCommandIsRefused : Obligations.SecondCommandIsRefused := by
  intro i s f hc hf hne
  obtain ⟨prog, first, acc0, hexec⟩ := exec_command hc s
  rw [hexec]
  exact State.perform_overlap hf hne prog first acc0

/-- Settles O31: what is ill formed is a command, and the test of its operands comes before any micro-step
(`State.perform_ill`). -/
theorem illFormedCommandsAnswerIll : Obligations.IllFormedCommandsAnswerIll := by
  intro i s hw hidle
  obtain ⟨prog, first, acc0, hexec⟩ := exec_command (isCommand_of_not_wellFormed hw) s
  rw [hexec, State.perform_ill (State.position_fresh hidle i first acc0) hw, State.respondIll_of_idle hidle]

/-- Settles O33: `OVF_PEND` is the first test of a TICK (`execTick_eq`). -/
theorem tickWaitsWhilePending : Obligations.TickWaitsWhilePending := by
  intro s hpend
  rw [execTick_eq, if_pos hpend]

/-- Settles O36: the handler and ATTACHED's one micro-step both read the slot, and that read fails. -/
theorem missingSlotsFault : Obligations.MissingSlotsFault :=
  ⟨fun _ hsl => exec_ovf_missing hsl, fun _ _ hok hch hidle hsl => exec_attached_missing hok hch hidle hsl⟩

/-- Settles O49: no operation writes the parameters (`exec_cfg`), and a reset takes them over from the state it ends. -/
theorem parametersNeverChange : Obligations.ParametersNeverChange :=
  fun _ _ h => step_cfg h

end
